-- ==== Sys2Proof/Word.lean ====
section
/-! DEFINITION. The words of the block: a register is a byte (R8 `XLEN_REG`), a bus address has 16 bits
(R8 `ALEN`, R60) and a transaction is one 25-bit word (R80). -/

namespace Sys2Proof

/-- A register value or a data byte (R8, R65). -/
abbrev Byte := BitVec 8

/-- A data-space bus address (R8, R60). -/
abbrev Addr := BitVec 16

/-- One `BUS25` transaction word (R80). -/
abbrev BusWord := BitVec 25

end Sys2Proof
end

