-- ==== Sys2Proof/Config.lean ====
section
/-! DEFINITION. What the specification leaves to the platform: the agents, the free values (R10 `choose`,
`draw_byte`, `draw_bit`; constants without a body, so that no proof sees a value) and the parameters of R8. -/

namespace Sys2Proof

/-- The four agents of R6. -/
inductive Agent where
  | host
  | bus
  | tclk
  | pins
  deriving DecidableEq, Repr, Inhabited

/-- DESIGN CHOICE (log 1). The agent whose turn the `n`-th free choice makes it: the schedule of R6 and R320. -/
opaque Config.freeTurn : Nat → Agent

/-- The `n`-th free byte: a byte from the slave, a shifting data register, the pin levels (R162, R184, R214; log 4). -/
opaque Config.freeByte : Nat → Byte

/-- The `n`-th free bit: whether a blocked CTC match clears the count (R145, D15; log 4). -/
opaque Config.freeBit : Nat → Bool

/-- The `n`-th free choice out of a finite set: which status BUS reports (R210, R211; log 4). -/
opaque Config.freeIndex : Nat → Nat

/-- The operators of a host expression whose result the spec states for some operands only (R9; log 8). -/
inductive OpenOp where
  | and
  | or
  | xor
  | not
  | quotient
  | shiftLeft
  | shiftRight
  | bit
  | field
  | concat
  deriving DecidableEq, Repr, Inhabited

/-- DESIGN CHOICE (log 8). What an operator of a host expression gives on operands for which the spec states no
result: a division by 0, a shift by a negative number, a field `v[hi:lo]` with `hi < lo`, a concatenation `a ++ b` whose
`b` does not fit its width, a NOT of a number above 255, and every operator but sum, difference and left shift on a
negative number. -/
opaque Config.openResult : OpenOp → List Int → Int

/-- DESIGN CHOICE (log 9). What a host local that nothing has bound holds at the `n`-th draw. -/
opaque Config.unboundLocal : Nat → Nat → Nat

/-- `DATA_REG`, OPEN (R8, R250, D36; log 7). -/
opaque Config.dataReg : Byte

/-- `BURST_N` less one, OPEN (R8, R250, D36; log 7): `BURST_N` is at least 1. -/
opaque Config.burstExtra : Nat

/-- How a fault message renders its value in hexadecimal (R279: digits, case, prefix, separator). -/
structure HexFormat where
  /-- At least this many digits. -/
  digits : Nat
  upperCase : Bool
  /-- What stands before the digits. -/
  lead : String
  /-- What stands between the text and the value. -/
  separator : String
  deriving DecidableEq, Repr, Inhabited

/-- `MSG_HEX_FORMAT`, OPEN (R8, R279, U21; log 7). -/
opaque Config.msgHexFormat : HexFormat

/-- The parameters of R8 that a rule of the block or of its reference software reads. -/
structure Params where
  /-- `F_CPU` in Hz. -/
  fCpu : Nat
  /-- `SCL_HZ`. -/
  sclHz : Nat
  /-- `TWPS`; the prescaler is `4 ^ TWPS`. -/
  twps : BitVec 2
  /-- `T0_CS`, the Timer0 clock-select code. -/
  t0Cs : BitVec 3
  /-- `LED_BIT`. -/
  ledBit : Nat
  /-- `FAULT_TOGGLE_MS`. -/
  faultToggleMs : Nat
  /-- `DEV_ADDR`, a 7-bit address. -/
  devAddr : Nat
  /-- `CONFIG_REG`. -/
  configReg : Byte
  /-- `CONFIG_VAL`. -/
  configVal : Byte
  /-- `DATA_REG`. -/
  dataReg : Byte
  /-- `BURST_N`. -/
  burstN : Nat
  /-- `MSG_RESTART`. -/
  msgRestart : String
  /-- `MSG_HEX_FORMAT`. -/
  msgHexFormat : HexFormat
  deriving DecidableEq, Repr

/-- The parameters at the values R8 gives; where R8 says OPEN with a default, the default (log 6), and where it
says OPEN without one, a constant without a body (log 7). -/
def Config.params : Params where
  fCpu := 16000000
  sclHz := 400000
  twps := 0
  t0Cs := 0b011
  ledBit := 5
  faultToggleMs := 200
  devAddr := 0x68
  configReg := 0x6B
  configVal := 0x00
  dataReg := Config.dataReg
  burstN := Config.burstExtra + 1
  msgRestart := "restart"
  msgHexFormat := Config.msgHexFormat

end Sys2Proof
end

