-- ==== Sys2Proof/Syntax.lean ====
section
/-! DEFINITION. The instructions of the block: one constructor per row of spec/opcode_table.json (R84).
What the block executes is a bus transaction; a read carries nothing (its data bits are ignored, R84) and a
write carries the whole data byte, ignored bits included, so that no bit of an encoding is lost. -/

namespace Sys2Proof

/-- The 35 rows of the opcode map (R84), in the table's order. -/
inductive Instr where
  | rdPinb
  | wrPinb (v : Byte)
  | rdDdrb
  | wrDdrb (v : Byte)
  | rdPortb
  | wrPortb (v : Byte)
  | rdTifr0
  | wrTifr0 (v : Byte)
  | rdTccr0a
  | wrTccr0a (v : Byte)
  | rdTccr0b
  | wrTccr0b (v : Byte)
  | wrTccr0bHi (v : Byte)
  | rdTcnt0
  | wrTcnt0 (v : Byte)
  | rdOcr0a
  | wrOcr0a (v : Byte)
  | rdOcr0b
  | wrOcr0b (v : Byte)
  | rdTimsk0
  | wrTimsk0 (v : Byte)
  | rdTwbr
  | wrTwbr (v : Byte)
  | rdTwsr
  | wrTwsr (v : Byte)
  | rdTwdr
  | wrTwdr (v : Byte)
  | rdTwcr
  | wrTwcrDisable (v : Byte)
  | wrTwcrConfig (v : Byte)
  | wrTwcrStart (v : Byte)
  | wrTwcrStopStart (v : Byte)
  | wrTwcrStop (v : Byte)
  | wrTwcrContAck (v : Byte)
  | wrTwcrContNack (v : Byte)
  deriving DecidableEq, Repr

end Sys2Proof
end

