-- ==== Sys2Proof/WellFormed.lean ====
section
/-! DEFINITION. Which instructions are rows of the opcode map: the data byte of a write fits the row's D
pattern (R84). A read and a write whose pattern is all `x` are always well formed. -/

namespace Sys2Proof

/-- The byte `v` agrees with `value` on the bits of `mask`: the D pattern of a row of R84. -/
def fits (v mask value : Byte) : Bool := v &&& mask == value

/-- The D patterns of R84. -/
def Instr.wf : Instr → Bool
  | .rdPinb => true
  | .wrPinb _ => true
  | .rdDdrb => true
  | .wrDdrb _ => true
  | .rdPortb => true
  | .wrPortb _ => true
  | .rdTifr0 => true
  | .wrTifr0 _ => true
  | .rdTccr0a => true
  | .wrTccr0a v => fits v 0b11111101 0b00000000
  | .rdTccr0b => true
  | .wrTccr0b v => fits v 0b11111100 0b00000000
  | .wrTccr0bHi v => fits v 0b11111110 0b00000100
  | .rdTcnt0 => true
  | .wrTcnt0 _ => true
  | .rdOcr0a => true
  | .wrOcr0a _ => true
  | .rdOcr0b => true
  | .wrOcr0b _ => true
  | .rdTimsk0 => true
  | .wrTimsk0 v => fits v 0b11111111 0b00000000
  | .rdTwbr => true
  | .wrTwbr _ => true
  | .rdTwsr => true
  | .wrTwsr _ => true
  | .rdTwdr => true
  | .wrTwdr _ => true
  | .rdTwcr => true
  | .wrTwcrDisable v => fits v 0b00110101 0b00000000
  | .wrTwcrConfig v => fits v 0b10110101 0b00000100
  | .wrTwcrStart v => fits v 0b10110101 0b10100100
  | .wrTwcrStopStart v => fits v 0b10110101 0b10110100
  | .wrTwcrStop v => fits v 0b10110101 0b10010100
  | .wrTwcrContAck v => fits v 0b11110101 0b11000100
  | .wrTwcrContNack v => fits v 0b11110101 0b10000100

end Sys2Proof
end

