-- ==== Sys2Proof/Decode.lean ====
section
/-! DEFINITION. The address map (R62), the `BUS25` format (R80), the decoder (R82) over the rows of the opcode
map (R84), and after it the encoder. -/

namespace Sys2Proof

/-! ## The address map (R62) -/

def addrPinb : Addr := 0x0023
def addrDdrb : Addr := 0x0024
def addrPortb : Addr := 0x0025
def addrTifr0 : Addr := 0x0035
def addrTccr0a : Addr := 0x0044
def addrTccr0b : Addr := 0x0045
def addrTcnt0 : Addr := 0x0046
def addrOcr0a : Addr := 0x0047
def addrOcr0b : Addr := 0x0048
def addrTimsk0 : Addr := 0x006E
def addrTwbr : Addr := 0x00B8
def addrTwsr : Addr := 0x00B9
def addrTwdr : Addr := 0x00BB
def addrTwcr : Addr := 0x00BC

/-- Every mapped address (R62). -/
def addressMap : List Addr :=
  [addrPinb, addrDdrb, addrPortb, addrTifr0, addrTccr0a, addrTccr0b, addrTcnt0, addrOcr0a, addrOcr0b,
   addrTimsk0, addrTwbr, addrTwsr, addrTwdr, addrTwcr]

/-- An address names a register of the block (R62); every other address is unmapped (R63). -/
def mapped (a : Addr) : Bool := addressMap.contains a

/-- The data address an I/O-space access of the host reaches: registers at data addresses 0x20 to 0x5F are also at
I/O address `data address - 0x20`, and the access is the same transaction (R61). -/
def dataAddrOfIo (io : BitVec 6) : Addr := io.setWidth 16 + 0x20

/-! ## The transaction format (R80) -/

/-- `word = W << 24 | A << 8 | D` (R80). -/
def busWord (w : Bool) (a : Addr) (d : Byte) : BusWord := BitVec.ofBool w ++ a ++ d

/-- Bit 24: 1 is a write (R80). -/
def writeField (w : BusWord) : Bool := w.getLsbD 24

/-- Bits 23:8: the address, unsigned (R80, R81). -/
def addrField (w : BusWord) : Addr := w.extractLsb' 8 16

/-- Bits 7:0: the data byte, unsigned (R80, R81). -/
def dataField (w : BusWord) : Byte := w.extractLsb' 0 8

/-! ## The opcode map (R84) -/

/-- A row of spec/opcode_table.json: a word is of the row when `word & mask = value`. -/
structure Row where
  mask : BusWord
  value : BusWord
  build : Byte → Instr

/-- `word & mask = match` (R82). -/
def rowAccepts (r : Row) (w : BusWord) : Bool := w &&& r.mask == r.value

def rowsGpio : List Row :=
  [⟨0x1FFFF00, 0x0002300, fun _ => .rdPinb⟩, ⟨0x1FFFF00, 0x1002300, .wrPinb⟩,
   ⟨0x1FFFF00, 0x0002400, fun _ => .rdDdrb⟩, ⟨0x1FFFF00, 0x1002400, .wrDdrb⟩,
   ⟨0x1FFFF00, 0x0002500, fun _ => .rdPortb⟩, ⟨0x1FFFF00, 0x1002500, .wrPortb⟩]

def rowsTimer : List Row :=
  [⟨0x1FFFF00, 0x0003500, fun _ => .rdTifr0⟩, ⟨0x1FFFF00, 0x1003500, .wrTifr0⟩,
   ⟨0x1FFFF00, 0x0004400, fun _ => .rdTccr0a⟩, ⟨0x1FFFFFD, 0x1004400, .wrTccr0a⟩,
   ⟨0x1FFFF00, 0x0004500, fun _ => .rdTccr0b⟩, ⟨0x1FFFFFC, 0x1004500, .wrTccr0b⟩,
   ⟨0x1FFFFFE, 0x1004504, .wrTccr0bHi⟩,
   ⟨0x1FFFF00, 0x0004600, fun _ => .rdTcnt0⟩, ⟨0x1FFFF00, 0x1004600, .wrTcnt0⟩,
   ⟨0x1FFFF00, 0x0004700, fun _ => .rdOcr0a⟩, ⟨0x1FFFF00, 0x1004700, .wrOcr0a⟩,
   ⟨0x1FFFF00, 0x0004800, fun _ => .rdOcr0b⟩, ⟨0x1FFFF00, 0x1004800, .wrOcr0b⟩,
   ⟨0x1FFFF00, 0x0006E00, fun _ => .rdTimsk0⟩, ⟨0x1FFFFFF, 0x1006E00, .wrTimsk0⟩]

def rowsTwi : List Row :=
  [⟨0x1FFFF00, 0x000B800, fun _ => .rdTwbr⟩, ⟨0x1FFFF00, 0x100B800, .wrTwbr⟩,
   ⟨0x1FFFF00, 0x000B900, fun _ => .rdTwsr⟩, ⟨0x1FFFF00, 0x100B900, .wrTwsr⟩,
   ⟨0x1FFFF00, 0x000BB00, fun _ => .rdTwdr⟩, ⟨0x1FFFF00, 0x100BB00, .wrTwdr⟩,
   ⟨0x1FFFF00, 0x000BC00, fun _ => .rdTwcr⟩]

def rowsTwcr : List Row :=
  [⟨0x1FFFF35, 0x100BC00, .wrTwcrDisable⟩, ⟨0x1FFFFB5, 0x100BC04, .wrTwcrConfig⟩,
   ⟨0x1FFFFB5, 0x100BCA4, .wrTwcrStart⟩, ⟨0x1FFFFB5, 0x100BCB4, .wrTwcrStopStart⟩,
   ⟨0x1FFFFB5, 0x100BC94, .wrTwcrStop⟩, ⟨0x1FFFFF5, 0x100BCC4, .wrTwcrContAck⟩,
   ⟨0x1FFFFF5, 0x100BC84, .wrTwcrContNack⟩]

/-- The 35 rows (R84). -/
def rows : List Row := rowsGpio ++ rowsTimer ++ rowsTwi ++ rowsTwcr

/-! ## The decoder (R82) -/

/-- Why a word is no instruction (R82). -/
inductive DecodeError where
  /-- The address is not in the map (R63): the access raises Fault(UNMAPPED). -/
  | unmapped
  /-- No row, and the word would enable an interrupt (R276). -/
  | interruptEnable
  /-- No row for any other reason (R89). -/
  | reservedValue
  deriving DecidableEq, Repr

/-- The name of a word that no row matches: a TWCR write with bit 0 set or a TIMSK0 write other than 0 would enable
an interrupt, every other one is a reserved value (R82 step 3, C8). -/
def reservedReason (w : BusWord) : DecodeError :=
  if writeField w && ((addrField w == addrTwcr && (dataField w).getLsbD 0) || (addrField w == addrTimsk0 && dataField w != 0))
  then .interruptEnable
  else .reservedValue

/-- The decoder, total on the 25-bit words (R82). -/
def decode (w : BusWord) : Except DecodeError Instr :=
  if mapped (addrField w) then
    match rows.find? (fun r => rowAccepts r w) with
    | some r => .ok (r.build (dataField w))
    | none => .error (reservedReason w)
  else .error .unmapped

/-- The bits of an instruction as the opcode table numbers them: the block's one transaction word, bit 24 the
highest. A number with a bit above 24 is no `BUS25` word. -/
def decodeTableWord (nbits w : Nat) : Option Instr :=
  if w % 2 ^ nbits < 2 ^ 25 then
    match decode (BitVec.ofNat 25 (w % 2 ^ nbits)) with
    | .ok i => some i
    | .error _ => none
  else none

/-! ## The encoder -/

/-- A read word `0 ++ A ++ 0x00` (R110). -/
def readWord (a : Addr) : BusWord := busWord false a 0x00

/-- A write word `1 ++ A ++ v` (R111). -/
def writeWord (a : Addr) (v : Byte) : BusWord := busWord true a v

/-- The word of a well-formed instruction (R80, R84). -/
def encode : Instr → BusWord
  | .rdPinb => readWord addrPinb
  | .wrPinb v => writeWord addrPinb v
  | .rdDdrb => readWord addrDdrb
  | .wrDdrb v => writeWord addrDdrb v
  | .rdPortb => readWord addrPortb
  | .wrPortb v => writeWord addrPortb v
  | .rdTifr0 => readWord addrTifr0
  | .wrTifr0 v => writeWord addrTifr0 v
  | .rdTccr0a => readWord addrTccr0a
  | .wrTccr0a v => writeWord addrTccr0a v
  | .rdTccr0b => readWord addrTccr0b
  | .wrTccr0b v => writeWord addrTccr0b v
  | .wrTccr0bHi v => writeWord addrTccr0b v
  | .rdTcnt0 => readWord addrTcnt0
  | .wrTcnt0 v => writeWord addrTcnt0 v
  | .rdOcr0a => readWord addrOcr0a
  | .wrOcr0a v => writeWord addrOcr0a v
  | .rdOcr0b => readWord addrOcr0b
  | .wrOcr0b v => writeWord addrOcr0b v
  | .rdTimsk0 => readWord addrTimsk0
  | .wrTimsk0 v => writeWord addrTimsk0 v
  | .rdTwbr => readWord addrTwbr
  | .wrTwbr v => writeWord addrTwbr v
  | .rdTwsr => readWord addrTwsr
  | .wrTwsr v => writeWord addrTwsr v
  | .rdTwdr => readWord addrTwdr
  | .wrTwdr v => writeWord addrTwdr v
  | .rdTwcr => readWord addrTwcr
  | .wrTwcrDisable v => writeWord addrTwcr v
  | .wrTwcrConfig v => writeWord addrTwcr v
  | .wrTwcrStart v => writeWord addrTwcr v
  | .wrTwcrStopStart v => writeWord addrTwcr v
  | .wrTwcrStop v => writeWord addrTwcr v
  | .wrTwcrContAck v => writeWord addrTwcr v
  | .wrTwcrContNack v => writeWord addrTwcr v

end Sys2Proof
end

