-- ==== Sys2Proof/Machine/Program.lean ====
section
/-! DEFINITION. The host-sequence notation (R100) as plain data: expressions, conditions, statements, sequences and
the named procedures of 44_driver_procedures.md. What each statement does is in Machine/Thread.lean. -/

namespace Sys2Proof.Machine

/-- A host local, by number. The numbers are names only; a procedure's parameters are its locals 0, 1, … -/
abbrev Local := Nat

/-- The expressions `e` of R100: locals and constants with the operators of R9. DESIGN CHOICE (log 8): the index of
`v[i]` and the bounds of `v[hi:lo]` may be any expressions, and the width of `b` in `a ++ b` is a constant of the text;
R9 and R100 do not say. -/
inductive Expr where
  | lit (n : Nat)
  | var (x : Local)
  | and (a b : Expr)
  | or (a b : Expr)
  | xor (a b : Expr)
  | not (a : Expr)
  | shl (a b : Expr)
  | shr (a b : Expr)
  | add (a b : Expr)
  | sub (a b : Expr)
  | div (a b : Expr)
  /-- `v[i]`. -/
  | bit (a i : Expr)
  /-- `v[hi:lo]`. -/
  | slice (a hi lo : Expr)
  /-- `a ++ b` with `b` a string of `width` bits. -/
  | cat (a b : Expr) (width : Nat)
  deriving DecidableEq, Repr

/-- The comparisons of a condition (R123). -/
inductive Comparison where
  | eq
  | ne
  | lt
  | le
  | gt
  | ge
  deriving DecidableEq, Repr

/-- A condition `c` of R100: a comparison of locals and constants (R123). -/
structure Cond where
  cmp : Comparison
  lhs : Expr
  rhs : Expr
  deriving DecidableEq, Repr

/-- The width of the place a value is assigned to: a byte, or a 16-bit count (R121, R127). -/
inductive Width where
  | byte
  | count
  deriving DecidableEq, Repr

/-- The seven fault sites (R243). -/
inductive Site where
  | start
  | restart
  | addressWrite
  | addressRead
  | writeByte
  | readByte
  | readLastByte
  deriving DecidableEq, Repr

/-- The procedures of 44_driver_procedures.md. -/
inductive ProcName where
  | twiInit
  | start
  | restart
  | stop
  | addressWrite
  | addressRead
  | writeByte
  | readByte
  | readLastByte
  /-- `reportAndFault(s [, e])`: `withValue` says that `e` is given (R244). DESIGN CHOICE (log 20): the site, and
  whether `e` is given, are constants of the text and stand in the name; only `e` is an argument that is evaluated.
  R100 and R244 do not say. -/
  | reportAndFault (s : Site) (withValue : Bool)
  | delayMilliseconds
  | enterFaultState
  | sensorInit
  | burstRead
  deriving DecidableEq, Repr

/-- Where a call's result goes: a local, or the local byte list `buf` (R250). -/
inductive Dest where
  | loc (x : Local)
  | buf
  deriving DecidableEq, Repr

/-- What `RET` returns (R126). -/
inductive RetValue where
  | nothing
  | expr (e : Expr)
  /-- `RET buf` (R250). -/
  | buf
  deriving DecidableEq, Repr

/-- The statements of R100 that hold no sequence. -/
inductive Stmt where
  /-- `RD A -> x` (R110). -/
  | rd (a : Addr) (x : Local)
  /-- `WR A, e` (R111). -/
  | wr (a : Addr) (e : Expr)
  /-- `SETB A, b` (R115). -/
  | setb (a : Addr) (b : Nat)
  /-- `CLRB A, b` (R116). -/
  | clrb (a : Addr) (b : Nat)
  /-- `TGLB A, b` (R117). -/
  | tglb (a : Addr) (b : Nat)
  /-- `TSTB A, b -> x` (R118). -/
  | tstb (a : Addr) (b : Nat) (x : Local)
  /-- `POLL A, M, V` (R119). -/
  | poll (a : Addr) (m v : Byte)
  /-- `EXPECT A, M, V, s [, e]` (R120). DESIGN CHOICE (log 20): the site is a constant of the text; R100 says so of
  `M`, `V` and `b` only. -/
  | expect (a : Addr) (m v : Byte) (s : Site) (e : Option Expr)
  /-- `LET x = e` (R121). -/
  | assign (w : Width) (x : Local) (e : Expr)
  /-- `CALL p(e, ...) [-> x]` (R126). -/
  | call (p : ProcName) (args : List Expr) (dst : Option Dest)
  /-- `RET [e]` (R126). -/
  | ret (r : RetValue)
  /-- `EMIT "text" [, e]` (R279). -/
  | emit (text : String) (e : Option Expr)
  /-- `append x to buf` (R250). -/
  | append (e : Expr)
  /-- `fault_site <- s` (R244), with the constant site of its `reportAndFault` (log 20). -/
  | setSite (s : Site)
  deriving DecidableEq, Repr

/-- A sequence of statements: a list whose compound elements hold sequences of their own (R100). -/
inductive Prog where
  | done
  | cons (st : Stmt) (rest : Prog)
  /-- `IF c { thn } ELSE { els }` (R123). -/
  | ite (c : Cond) (thn els rest : Prog)
  /-- `LOOP e { body }` (R124). -/
  | loop (e : Expr) (body rest : Prog)
  /-- `FOREVER { body }`; no statement after it is reached (R125). -/
  | forever (body : Prog)
  deriving DecidableEq, Repr

/-- One element of what is left to run in an activation. -/
inductive Todo where
  /-- The rest of a sequence. -/
  | seq (s : Prog)
  /-- A `LOOP` with this many runs of its body left (R124). -/
  | loop (k : Nat) (body : Prog)
  /-- A `FOREVER` (R125). -/
  | forever (body : Prog)
  deriving DecidableEq, Repr

/-- A running procedure: its locals, its byte list `buf`, what is left of its text (the first element first) and
where its result goes in the caller (R126). -/
structure Activation where
  vars : List (Local × Nat)
  buf : List Byte
  todo : List Todo
  dst : Option Dest
  deriving DecidableEq, Repr

/-- A list of plain statements as a sequence, followed by `tail`. -/
def Prog.ofList (l : List Stmt) (tail : Prog) : Prog := l.foldr Prog.cons tail

end Sys2Proof.Machine
end

