-- ==== Sys2Proof/Machine/Driver.lean ====
section
/-! DEFINITION. The reference software that fixes the block's contract (44_driver_procedures.md): the constants its
text computes from the parameters, the fault sites, the body of each procedure and PROG main. -/

namespace Sys2Proof.Machine

/-! ## Constants computed from the parameters -/

/-- The prescaler `P = 4 ^ TWPS` (R231). -/
def prescaler (p : Params) : Nat := 4 ^ p.twps.toNat

/-- `TWBR_VAL` (R231). -/
def twbrVal (p : Params) : Nat := (p.fCpu / p.sclHz - 16) / (2 * prescaler p)

/-- `T0_OCR = F_CPU / (64 * 1000) - 1` (R246). -/
def t0Ocr (p : Params) : Nat := p.fCpu / (64 * 1000) - 1

/-- The parameter sets the model is instantiated at (R231, R246, U24, and the types of R8). Of R246 both sentences: the
threshold is a byte, and `F_CPU ≤ 16 384 000`, which the formula alone with its integer division would pass by a little
(DESIGN CHOICE, log 19). -/
def paramsAdmissible (p : Params) : Bool :=
  decide (0 < p.sclHz) && decide (16 ≤ p.fCpu / p.sclHz) && decide (twbrVal p ≤ 255) &&
  decide (1 ≤ p.fCpu / (64 * 1000)) && decide (t0Ocr p ≤ 255) && decide (p.fCpu ≤ 16384000) &&
  decide (p.ledBit ≤ 7) && decide (p.devAddr ≤ 0x7F) && decide (1 ≤ p.burstN) && decide (p.faultToggleMs ≤ 65535)

/-! ## Command words (R88) and fault sites (R243) -/

/-- START and repeated START: TWINT, TWSTA, TWEN (R88). -/
def cmdStart : Nat := 0xA4
/-- STOP: TWINT, TWSTO, TWEN (R88). -/
def cmdStop : Nat := 0x94
/-- Transmit, and receive with NACK: TWINT, TWEN (R88). -/
def cmdContNack : Nat := 0x84
/-- Receive with ACK: TWINT, TWEA, TWEN (R88). -/
def cmdContAck : Nat := 0xC4

/-- The site numbers (R243, D44). -/
def siteNumber : Site → Nat
  | .start => 1
  | .restart => 2
  | .addressWrite => 3
  | .addressRead => 4
  | .writeByte => 5
  | .readByte => 6
  | .readLastByte => 7

/-- The expected status of a site, `TWSR & 0xF8` (R243). -/
def siteExpected : Site → Byte
  | .start => 0x08
  | .restart => 0x10
  | .addressWrite => 0x18
  | .addressRead => 0x40
  | .writeByte => 0x28
  | .readByte => 0x50
  | .readLastByte => 0x58

/-- The message of a site (R243). -/
def siteMessage (p : Params) : Site → String
  | .start => "start"
  | .restart => p.msgRestart
  | .addressWrite => "master transmitter"
  | .addressRead => "master receiver"
  | .writeByte => "write data"
  | .readByte => "read data"
  | .readLastByte => "read last data"

/-- `n` in hexadecimal, as `MSG_HEX_FORMAT` says (R279). -/
def hexText (f : HexFormat) (n : Nat) : String :=
  let ds := (Nat.toDigits 16 n).map (fun c => if f.upperCase then c.toUpper else c)
  f.lead ++ String.ofList (List.replicate (f.digits - ds.length) '0' ++ ds)

/-- The line of fault text an event stands for: the text, the value in hexadecimal where there is one, then CR LF
(R279, U21). The line itself is the diagnostic sink's (R5): no step sends it, `emitted` holds the event. -/
def eventLine (p : Params) (text : String) (e : Option Byte) : String :=
  match e with
  | none => text ++ "\r\n"
  | some v => text ++ p.msgHexFormat.separator ++ hexText p.msgHexFormat v.toNat ++ "\r\n"

/-! ## Procedures -/

/-- `waitComplete` (R232). -/
def waitComplete : Stmt := .poll addrTwcr 0x80 0x80

/-- `checkStatus(site [, e])` (R233). -/
def checkStatus (s : Site) (e : Option Expr) : Stmt := .expect addrTwsr 0xF8 (siteExpected s) s e

/-- The parameters of a procedure: the width of each (R242, R244, R245). -/
def procParams : ProcName → List Width
  | .twiInit => []
  | .start => []
  | .restart => []
  | .stop => []
  | .addressWrite => [.byte]
  | .addressRead => [.byte]
  | .writeByte => [.byte]
  | .readByte => []
  | .readLastByte => []
  | .reportAndFault _ withValue => if withValue then [.byte] else []
  | .delayMilliseconds => [.count]
  | .enterFaultState => []
  | .sensorInit => []
  | .burstRead => []

/-- `twiInit` (R230). -/
def bodyTwiInit (p : Params) : Prog :=
  .ofList [.wr addrTwsr (.lit p.twps.toNat), .wr addrTwbr (.lit (twbrVal p)), .ret .nothing] .done

/-- `start` (R234). -/
def bodyStart : Prog :=
  .ofList [.wr addrTwcr (.lit cmdStart), waitComplete, checkStatus .start none, .ret .nothing] .done

/-- `restart` (R235). -/
def bodyRestart : Prog :=
  .ofList [.wr addrTwcr (.lit cmdStart), waitComplete, checkStatus .restart none, .ret .nothing] .done

/-- `stop` (R236): waits on TWSTO, checks no status. -/
def bodyStop : Prog :=
  .ofList [.wr addrTwcr (.lit cmdStop), .poll addrTwcr 0x10 0x00, .ret .nothing] .done

/-- The address phase of `addressWrite` and `addressRead` (R237, R238): local 0 is `a`, local 1 is `b`. -/
def bodyAddress (dir : Nat) (s : Site) : Prog :=
  .ofList [.assign .byte 1 (.or (.shl (.var 0) (.lit 1)) (.lit dir)), .wr addrTwdr (.var 1),
    .wr addrTwcr (.lit cmdContNack), waitComplete, checkStatus s (some (.var 0)), .ret .nothing] .done

/-- `writeByte(d)` (R239): local 0 is `d`. -/
def bodyWriteByte : Prog :=
  .ofList [.wr addrTwdr (.var 0), .wr addrTwcr (.lit cmdContNack), waitComplete,
    checkStatus .writeByte (some (.var 0)), .ret .nothing] .done

/-- `readByte` (R240): local 0 is `x`. -/
def bodyReadByte : Prog :=
  .ofList [.wr addrTwcr (.lit cmdContAck), waitComplete, checkStatus .readByte none, .rd addrTwdr 0,
    .ret (.expr (.var 0))] .done

/-- `readLastByte` (R241): local 0 is `x`. -/
def bodyReadLastByte : Prog :=
  .ofList [.wr addrTwcr (.lit cmdContNack), waitComplete, checkStatus .readLastByte none, .rd addrTwdr 0,
    .ret (.expr (.var 0))] .done

/-- `reportAndFault(s [, e])` (R244): local 0 is `e` where it is given. -/
def bodyReportAndFault (p : Params) (s : Site) (withValue : Bool) : Prog :=
  .ofList [.setSite s, .emit (siteMessage p s) (if withValue then some (.var 0) else none),
    .call .enterFaultState [] none] .done

/-- `delayMilliseconds(n)` (R245): local 0 is `n`. -/
def bodyDelay (p : Params) : Prog :=
  .ite ⟨.eq, .var 0, .lit 0⟩ (.ofList [.ret .nothing] .done) .done <|
  .ofList [.wr addrTccr0a (.lit 0x02), .wr addrTccr0b (.lit p.t0Cs.toNat), .wr addrOcr0a (.lit (t0Ocr p)),
    .wr addrTcnt0 (.lit 0x00)] <|
  .loop (.var 0) (.ofList [.poll addrTifr0 0x02 0x02, .wr addrTifr0 (.lit 0x02)] .done) <|
  .ofList [.ret .nothing] .done

/-- `enterFaultState` (R247). -/
def bodyEnterFaultState (p : Params) : Prog :=
  .ofList [.setb addrDdrb p.ledBit] <|
  .forever (.ofList [.tglb addrPortb p.ledBit, .call .delayMilliseconds [.lit p.faultToggleMs] none] .done)

/-- `sensorInit` (R249). -/
def bodySensorInit (p : Params) : Prog :=
  .ofList [.call .start [] none, .call .addressWrite [.lit p.devAddr] none,
    .call .writeByte [.lit p.configReg.toNat] none, .call .writeByte [.lit p.configVal.toNat] none,
    .call .stop [] none, .ret .nothing] .done

/-- `burstRead` (R250): local 0 is `x`. -/
def bodyBurstRead (p : Params) : Prog :=
  .ofList [.call .start [] none, .call .addressWrite [.lit p.devAddr] none,
    .call .writeByte [.lit p.dataReg.toNat] none, .call .restart [] none,
    .call .addressRead [.lit p.devAddr] none] <|
  .loop (.sub (.lit p.burstN) (.lit 1))
    (.ofList [.call .readByte [] (some (.loc 0)), .append (.var 0)] .done) <|
  .ofList [.call .readLastByte [] (some (.loc 0)), .append (.var 0), .call .stop [] none, .ret .buf] .done

/-- The text of a procedure. -/
def procBody (p : Params) : ProcName → Prog
  | .twiInit => bodyTwiInit p
  | .start => bodyStart
  | .restart => bodyRestart
  | .stop => bodyStop
  | .addressWrite => bodyAddress 0 .addressWrite
  | .addressRead => bodyAddress 1 .addressRead
  | .writeByte => bodyWriteByte
  | .readByte => bodyReadByte
  | .readLastByte => bodyReadLastByte
  | .reportAndFault s withValue => bodyReportAndFault p s withValue
  | .delayMilliseconds => bodyDelay p
  | .enterFaultState => bodyEnterFaultState p
  | .sensorInit => bodySensorInit p
  | .burstRead => bodyBurstRead p

/-- `PROG main` (R249). -/
def progMain : Prog :=
  .ofList [.call .twiInit [] none, .call .sensorInit [] none] <|
  .forever (.ofList [.call .burstRead [] (some .buf)] .done)

end Sys2Proof.Machine
end

