-- ==== Sys2Proof/Machine/State.lean ====
section
/-! DEFINITION. The state of the machine as plain data: the three units of the block (R22, R31, R39), the host
(R43), the marks (R44), and the model's own counters; the reasons a step can stop; the state after reset (R300). -/

namespace Sys2Proof.Machine

/-- A pending TWI operation (R29). -/
inductive TwiOp where
  | start
  | repStart
  | stopStart
  | sla (b : Byte)
  | tx (b : Byte)
  | rxAck
  | rxNack
  deriving DecidableEq, Repr

/-- The control state of the TWI state machine (R24). -/
inductive Phase where
  | off
  | idle
  | pending (op : TwiOp)
  | held
  | stopping
  deriving DecidableEq, Repr

/-- The TWI unit (R22): the stored bits of TWCR (R23), the fields of TWSR (R26), TWDR (R27), TWBR (R28), the
phase (R24) and the ownership of the bus (R25). -/
structure Twi where
  int : Bool
  ea : Bool
  sta : Bool
  sto : Bool
  wc : Bool
  en : Bool
  ie : Bool
  tws : BitVec 5
  twps : BitVec 2
  twdr : Byte
  twbr : Byte
  phase : Phase
  owns : Bool
  deriving DecidableEq, Repr

/-- The timer unit (R31 to R37). -/
structure Tmr where
  tccr0a : Byte
  tccr0b : Byte
  tcnt : Byte
  ocra : Byte
  ocrb : Byte
  ocfa : Bool
  ocfb : Bool
  tov : Bool
  timsk : Byte
  cmBlock : Bool
  deriving DecidableEq, Repr

/-- The GPIO unit (R39, R41). PINB has no stored state (R40). -/
structure Gpio where
  ddr : Byte
  port : Byte
  stale : Byte
  deriving DecidableEq, Repr

/-- The HOST agent (R43): its position and locals (the running activation first, its callers after it; where the
sequence has ended, the outermost one with its locals and nothing left to run), `fault_site`, `emitted`, and the byte of
its last read (log 3). -/
structure HostThread where
  acts : List Activation
  faultSite : Option Site
  emitted : List (String × Option Byte)
  rdata : Byte
  deriving DecidableEq, Repr

/-- The whole machine. `draws` counts the free values drawn (log 4) and `turn` is the agent that moves next if it
is enabled (log 1); both are the model's own. -/
structure State where
  twi : Twi
  tmr : Tmr
  gpio : Gpio
  thread : HostThread
  faulted : Bool
  refused : Bool
  draws : Nat
  turn : Agent
  deriving DecidableEq, Repr

/-- Why a step ends in a fault. -/
inductive Fault where
  /-- `UNMAPPED` (R270, R274): a transaction at an address outside the map, raised by the bus access of the host,
  never by an instruction. Safe: the sources define no result there. -/
  | unmapped
  /-- The run has already ended at a fault or a refusal (R270, R271), raised by step. Safe: no agent takes a step. -/
  | runEnded
  /-- No agent has an enabled step (R303; R272), raised by step. Safe: nothing moves there. -/
  | noEnabledAgent
  deriving DecidableEq, Repr

/-- Why a step is refused: the reason codes of R274, and the model's own names. -/
inductive Refusal where
  /-- An instruction without a meaning, raised by exec's arm of it. Safe. -/
  | notModelled (mnemonic : String)
  /-- `INTERRUPT_ENABLE` (R276): a TWCR write with bit 0 set, a TIMSK0 write other than 0; raised by the bus access
  and by the meanings of those writes. Safe: the spec declines to model it. -/
  | interruptEnable
  /-- `RESERVED_VALUE` (R89, R134): a write that no row matches; raised by the bus access, and by the meaning of a
  write whose byte is not of its row. Safe: the spec declines to model it. -/
  | reservedValue
  /-- `TWI_BUSY` (R187): a TWCR command other than DISABLE in phase Pending or Stopping. Safe. -/
  | twiBusy
  /-- `TWI_ILLEGAL_COMMAND` (R191): a command without an entry in the admission table. Safe. -/
  | twiIllegalCommand
  /-- `TWI_DISABLED_ACCESS` (R185): a TWDR write while the unit is off. Safe. -/
  | twiDisabledAccess
  /-- `BAD_BIT_INDEX` (R115 to R118): a bit operation with an index above 7, raised by the host. Safe. -/
  | badBitIndex
  /-- `ADDR_TOO_WIDE` (R242): an address argument that is no 7-bit number, raised by the host's call. Safe. -/
  | addrTooWide
  deriving DecidableEq, Repr

/-- The TWI unit after reset (R300). -/
def Twi.reset : Twi where
  int := false
  ea := false
  sta := false
  sto := false
  wc := false
  en := false
  ie := false
  tws := 0b11111
  twps := 0b00
  twdr := 0xFF
  twbr := 0x00
  phase := .off
  owns := false

/-- The timer unit after reset (R300). -/
def Tmr.reset : Tmr where
  tccr0a := 0x00
  tccr0b := 0x00
  tcnt := 0x00
  ocra := 0x00
  ocrb := 0x00
  ocfa := false
  ocfb := false
  tov := false
  timsk := 0x00
  cmBlock := false

/-- The GPIO unit after reset (R300). -/
def Gpio.reset : Gpio where
  ddr := 0x00
  port := 0x00
  stale := 0x00

/-- The host about to run a sequence: no locals, no fault site, nothing emitted (R302). -/
def HostThread.entering (p : Prog) : HostThread where
  acts := [⟨[], [], [.seq p], none⟩]
  faultSite := none
  emitted := []
  rdata := 0x00

/-- The machine right after reset (R300, R302): the host stands at the first statement of PROG main. -/
def State.reset : State where
  twi := .reset
  tmr := .reset
  gpio := .reset
  thread := .entering progMain
  faulted := false
  refused := false
  draws := 0
  turn := .host

end Sys2Proof.Machine
end

