-- ==== Sys2Proof/Machine/Ops.lean ====
section
/-! DEFINITION. The named operations over the state: the setters of its parts, the draws, the end of a transaction,
the end of a run, and outcomes.
Taking an exception: the block has no trap entry, no saved state, no vector, no mode and no return from a trap
(R277, R278, R289), and no interrupt is ever delivered (R276), so there is no such operation to share. What ends a
run is `endState`; the software fault path is host text (R244, Machine/Driver.lean). -/

namespace Sys2Proof.Machine

/-! ## Setters -/

def setTwi (s : State) (t : Twi) : State := { s with twi := t }
def setTmr (s : State) (t : Tmr) : State := { s with tmr := t }
def setGpio (s : State) (g : Gpio) : State := { s with gpio := g }
def setThread (s : State) (h : HostThread) : State := { s with thread := h }
def setActs (s : State) (l : List Activation) : State := { s with thread := { s.thread with acts := l } }

/-! ## Draws (R10; log 4) -/

/-- The free byte a draw gives in this state. -/
def drawnByte (s : State) : Byte := Config.freeByte s.draws
/-- The free bit a draw gives in this state. -/
def drawnBit (s : State) : Bool := Config.freeBit s.draws
/-- The free index a choice out of a finite set takes in this state. -/
def drawnIndex (s : State) : Nat := Config.freeIndex s.draws
/-- The draw is used: the next one is another. -/
def advanceDraws (s : State) : State := { s with draws := s.draws + 1 }

/-! ## The end of a transaction -/

/-- A read transaction ends: the host has the byte (R110 `x <- v`) and `gpio.stale` is cleared (R167). -/
def readDone (s : State) (v : Byte) : State :=
  { s with thread := { s.thread with rdata := v }, gpio := { s.gpio with stale := 0x00 } }

/-- A write transaction other than one to DDRB, PORTB or PINB ends: `gpio.stale` is cleared (R167). -/
def writeDone (s : State) : State := { s with gpio := { s.gpio with stale := 0x00 } }

/-! ## Outcomes -/

/-- The outcomes of a step of this machine. -/
abbrev Result := Host.Outcome State Fault Refusal

/-- Continue with the next state; a fault and a refusal stay. -/
def andThen (o : Result) (f : State → Result) : Result :=
  match o with
  | .next t => f t
  | .fault r => .fault r
  | .refused r => .refused r

/-- Change the next state; a fault and a refusal stay. -/
def mapNext (o : Result) (f : State → State) : Result :=
  match o with
  | .next t => .next (f t)
  | .fault r => .fault r
  | .refused r => .refused r

/-- The state in which a step from `s` leaves the machine: `Fault(UNMAPPED)` and a refusal change nothing of the block
and set their mark (R44, R270, R271); where the run had already ended there was no step. -/
def endState (s : State) (o : Result) : State :=
  match o with
  | .next t => t
  | .fault .unmapped => { s with faulted := true }
  | .fault .runEnded => s
  | .fault .noEnabledAgent => s
  | .refused _ => { s with refused := true }

/-- Continue where a check holds, else refuse by name. -/
def require (ok : Bool) (why : Refusal) (o : Result) : Result := if ok then o else .refused why

end Sys2Proof.Machine
end

