-- ==== Sys2Proof/Machine/Operands.lean ====
section
/-! DEFINITION. The operand forms: the byte of a TWCR write as a command class (R85), the bit index of a bit
operation (R115 to R118), and the host's expressions and conditions (R9, R121, R123, R127). The fields of a
transaction word are in Sys2Proof/Decode.lean (R80, R81). -/

namespace Sys2Proof.Machine

/-! ## TWCR command classes (R85) -/

/-- The classes of R85: the seven rows, a reserved byte, and a byte that would enable the interrupt. -/
inductive TwcrClass where
  | disable
  | config
  | start
  | stop
  | stopStart
  | contAck
  | contNack
  | reserved
  | interruptEnable
  deriving DecidableEq, Repr

/-- The table of R85, on the bits INT (7), EA (6), STA (5), STO (4), EN (2), IE (0). -/
def twcrClass (v : Byte) : TwcrClass :=
  let sta := v.getLsbD 5
  let sto := v.getLsbD 4
  if v.getLsbD 0 then .interruptEnable
  else if !v.getLsbD 2 then (if sta || sto then .reserved else .disable)
  else if !v.getLsbD 7 then (if sta || sto then .reserved else .config)
  else
    match sta, sto with
    | true, false => .start
    | false, true => .stop
    | true, true => .stopStart
    | false, false => if v.getLsbD 6 then .contAck else .contNack

/-! ## Bit operations (R115 to R118) -/

/-- `1 << b` as a byte. -/
def bitMask (b : Nat) : Byte := (1 : Byte) <<< b

/-- The byte `SETB` writes back (R115). -/
def setBitOf (t : Byte) (b : Nat) : Byte := t ||| bitMask b
/-- The byte `CLRB` writes back (R116). -/
def clearBitOf (t : Byte) (b : Nat) : Byte := t &&& ~~~(bitMask b)
/-- The byte `TGLB` writes back (R117). -/
def toggleBitOf (t : Byte) (b : Nat) : Byte := t ^^^ bitMask b
/-- The 0 or 1 `TSTB` binds (R118). -/
def testBitOf (t : Byte) (b : Nat) : Nat := if t.getLsbD b then 1 else 0

/-! ## Expressions (R9, R127) -/

/-- The value of a local, none where it is not bound. -/
def lookup (vars : List (Local × Nat)) (x : Local) : Option Nat :=
  match vars with
  | [] => none
  | (y, n) :: rest => if y = x then some n else lookup rest x

/-- What a local holds: its value, or a free value where nothing has bound it; `n` is the count of draws (log 9). -/
def localValue (n : Nat) (vars : List (Local × Nat)) (x : Local) : Nat :=
  (lookup vars x).getD (Config.unboundLocal n x)

/-- Bind a local, in place of an earlier binding. -/
def bindLocal (vars : List (Local × Nat)) (x : Local) (n : Nat) : List (Local × Nat) :=
  (x, n) :: vars.filter (fun p => p.1 != x)

/-- The result where the spec states one: the operands are natural numbers and `ok` holds; else a free value (R9, R127;
DESIGN CHOICE, log 8). -/
def statedResult (op : OpenOp) (args : List Int) (ok : Bool) (v : Int) : Int :=
  if args.all (fun a => decide (0 ≤ a)) && ok then v else Config.openResult op args

/-- `/` rounds toward zero on natural numbers (R9). -/
def quotient (a b : Int) : Int := statedResult .quotient [a, b] (b != 0) (a / b)

/-- `<<`: the number shifted may be negative, as a sum may; the amount is a natural number (log 8). -/
def shiftLeft (a k : Int) : Int := if 0 ≤ k then a * 2 ^ k.toNat else Config.openResult .shiftLeft [a, k]

/-- `>>` on natural numbers (R9). -/
def shiftRight (a k : Int) : Int := statedResult .shiftRight [a, k] true (a / 2 ^ k.toNat)

/-- `v[i]` (R9). -/
def bitOf (a i : Int) : Int := statedResult .bit [a, i] true (a / 2 ^ i.toNat % 2)

/-- `v[hi:lo]`, from bit `hi` down to bit `lo` (R9). -/
def fieldOf (a hi lo : Int) : Int :=
  statedResult .field [a, hi, lo] (decide (lo ≤ hi)) (a / 2 ^ lo.toNat % 2 ^ (hi + 1 - lo).toNat)

/-- `a ++ b`, with `b` a string of `w` bits (R9); DESIGN CHOICE (log 8): free where `b` does not fit `w` bits. -/
def concatOf (a b : Int) (w : Nat) : Int := statedResult .concat [a, b, w] (decide (b < 2 ^ w)) (a * 2 ^ w + b)

/-- `&`, `|` and `^`, bit by bit on natural numbers of any width (R9, R127). -/
def bitwise (op : OpenOp) (f : Nat → Nat → Nat) (a b : Int) : Int :=
  statedResult op [a, b] true (f a.toNat b.toNat)

/-- `~`, NOT on an 8-bit value (R9); DESIGN CHOICE (log 8): free above 255. -/
def notOf (a : Int) : Int := statedResult .not [a] (decide (a ≤ 255)) (255 - a)

/-- Expressions are evaluated exactly (R127); `n` is the count of draws, for the locals that nothing has bound (log 9). -/
def evalExpr (n : Nat) (vars : List (Local × Nat)) : Expr → Int
  | .lit k => k
  | .var x => localValue n vars x
  | .and a b => bitwise .and (· &&& ·) (evalExpr n vars a) (evalExpr n vars b)
  | .or a b => bitwise .or (· ||| ·) (evalExpr n vars a) (evalExpr n vars b)
  | .xor a b => bitwise .xor (· ^^^ ·) (evalExpr n vars a) (evalExpr n vars b)
  | .not a => notOf (evalExpr n vars a)
  | .shl a b => shiftLeft (evalExpr n vars a) (evalExpr n vars b)
  | .shr a b => shiftRight (evalExpr n vars a) (evalExpr n vars b)
  | .add a b => evalExpr n vars a + evalExpr n vars b
  | .sub a b => evalExpr n vars a - evalExpr n vars b
  | .div a b => quotient (evalExpr n vars a) (evalExpr n vars b)
  | .bit a i => bitOf (evalExpr n vars a) (evalExpr n vars i)
  | .slice a hi lo => fieldOf (evalExpr n vars a) (evalExpr n vars hi) (evalExpr n vars lo)
  | .cat a b w => concatOf (evalExpr n vars a) (evalExpr n vars b) w

/-- A value reduced to the byte it is assigned to (R121, R127). -/
def toByte (v : Int) : Byte := BitVec.ofInt 8 v

/-- A value reduced to the place it is assigned to: modulo 256, or modulo 65536 for a count (R121, R127). -/
def reduceTo (w : Width) (v : Int) : Nat :=
  match w with
  | .byte => (v % 256).toNat
  | .count => (v % 65536).toNat

/-- The comparison of two values (R123). -/
def compareBy (c : Comparison) (a b : Int) : Bool :=
  match c with
  | .eq => decide (a = b)
  | .ne => decide (a ≠ b)
  | .lt => decide (a < b)
  | .le => decide (a ≤ b)
  | .gt => decide (b < a)
  | .ge => decide (b ≤ a)

/-- The truth of a condition (R123). -/
def evalCond (n : Nat) (vars : List (Local × Nat)) (c : Cond) : Bool :=
  compareBy c.cmp (evalExpr n vars c.lhs) (evalExpr n vars c.rhs)

/-- The locals of a called procedure: local `k` and after hold the arguments, each reduced to its parameter's width
(R126). A parameter without an argument stays unbound, and an argument without a parameter binds nothing (log 9). -/
def bindParams (k : Local) : List Width → List Int → List (Local × Nat)
  | w :: ws, v :: vs => (k, reduceTo w v) :: bindParams (k + 1) ws vs
  | [], _ => []
  | _, [] => []

end Sys2Proof.Machine
end

