-- ==== Sys2Proof/Machine/Flags.lean ====
section
/-! DEFINITION. Every flag computation: the bytes of TIFR0, TWCR and TWSR as read (R141, R182, R186), the
write-one-to-clear of TIFR0 (R142), the field update of a TWCR command (R188), and the flags of a timer tick (R145). -/

namespace Sys2Proof.Machine

/-- A byte of eight bits, bit 7 first (R9). -/
def byteOfBits (b7 b6 b5 b4 b3 b2 b1 b0 : Bool) : Byte :=
  BitVec.ofBool b7 ++ BitVec.ofBool b6 ++ BitVec.ofBool b5 ++ BitVec.ofBool b4 ++
  BitVec.ofBool b3 ++ BitVec.ofBool b2 ++ BitVec.ofBool b1 ++ BitVec.ofBool b0

/-- TIFR0 as read: `0b00000 ++ ocfb ++ ocfa ++ tov` (R35, R141). -/
def tifr0Byte (t : Tmr) : Byte := byteOfBits false false false false false t.ocfb t.ocfa t.tov

/-- TIFR0 as written: a 1 clears its flag, a 0 leaves it, bits 7:3 are ignored (R142). -/
def clearTifr0 (v : Byte) (t : Tmr) : Tmr :=
  { t with
    tov := t.tov && !v.getLsbD 0
    ocfa := t.ocfa && !v.getLsbD 1
    ocfb := t.ocfb && !v.getLsbD 2 }

/-- TWCR as read: `int ++ ea ++ sta ++ sto ++ wc ++ en ++ 0 ++ ie` (R23, R186). -/
def twcrByte (t : Twi) : Byte := byteOfBits t.int t.ea t.sta t.sto t.wc t.en false t.ie

/-- TWSR as read: `tws ++ 0 ++ twps` (R26, R182). -/
def twsrByte (t : Twi) : Byte := t.tws ++ (0 : BitVec 1) ++ t.twps

/-- The status in its 8-bit form, `tws << 3` (R12). -/
def statusOf (t : Twi) : Byte := t.tws ++ (0 : BitVec 3)

/-- The 5-bit field of a status given in its 8-bit form (R12). -/
def statusField (s : Byte) : BitVec 5 := s.extractLsb' 3 5

/-- No relevant state information: `tws = 0b11111` (R26, R213). -/
def noStatus : BitVec 5 := 0b11111

/-- The field update shared by the TWCR classes other than DISABLE (R188): writing 1 to bit 7 clears TWINT, writing
0 leaves it; bits 3 and 1 are ignored. -/
def commandFields (v : Byte) (t : Twi) : Twi :=
  { t with
    ea := v.getLsbD 6
    sta := v.getLsbD 5
    sto := v.getLsbD 4
    en := true
    ie := false
    int := t.int && !v.getLsbD 7 }

/-! ## The timer tick (R145) -/

/-- The timer runs when its clock is selected (R38, R146). -/
def timerRuns (t : Tmr) : Bool := t.tccr0b.extractLsb' 0 3 != 0

/-- `wgm = tccr0b[3] ++ tccr0a[1:0]` (R38). -/
def wgm (t : Tmr) : BitVec 3 := t.tccr0b.extractLsb' 3 1 ++ t.tccr0a.extractLsb' 0 2

/-- `mode = CTC` (R38). -/
def ctcMode (t : Tmr) : Bool := wgm t == 0b010

/-- The count after a tick. `clears` is the draw of a blocked match in CTC: whether it still clears (R145, D15). -/
def tickCount (clears : Bool) (t : Tmr) : Byte :=
  if ctcMode t && t.tcnt == t.ocra then
    (if t.cmBlock && !clears then t.tcnt + 1 else 0x00)
  else t.tcnt + 1

/-- One tick of the prescaled timer clock (R145): the flags are set only, never cleared. -/
def tick (clears : Bool) (t : Tmr) : Tmr :=
  { t with
    cmBlock := false
    ocfa := t.ocfa || (!t.cmBlock && t.tcnt == t.ocra)
    ocfb := t.ocfb || (!t.cmBlock && t.tcnt == t.ocrb)
    tov := t.tov || (t.tcnt == 0xFF && tickCount clears t == 0x00)
    tcnt := tickCount clears t }

end Sys2Proof.Machine
end

