-- ==== Sys2Proof/Machine/Gpio.lean ====
section
/-! DEFINITION. The GPIO unit, Port B (42_gpio_output_control.md): the meanings of its six transactions (R160 to
R165), the drive of a pin (R166) and the LED (R168). -/

namespace Sys2Proof.Machine

/-- The bits of PINB that are no draw: outputs whose level did not change in the previous transaction (R162). -/
def pinKnown (g : Gpio) : Byte := g.ddr &&& ~~~g.stale

/-- PINB as read: an output pin reads its own level, every other bit is a draw (R162). -/
def pinLevels (g : Gpio) (draw : Byte) : Byte := (g.port &&& pinKnown g) ||| (draw &&& ~~~(pinKnown g))

/-- A write changed the port: the bits whose level may have changed are stale (R167). -/
def writePort (g : Gpio) (v : Byte) : Gpio := { g with port := v, stale := g.port ^^^ v }

/-- `RD.PINB` (R162). -/
def execRdPinb (s : State) : Result := .next (readDone (advanceDraws s) (pinLevels s.gpio (drawnByte s)))

/-- `WR.PINB` (R163): toggles PORTB where a 1 is written, whatever the direction. -/
def execWrPinb (v : Byte) (s : State) : Result := .next (setGpio s (writePort s.gpio (s.gpio.port ^^^ v)))

/-- `RD.DDRB` (R160). -/
def execRdDdrb (s : State) : Result := .next (readDone s s.gpio.ddr)

/-- `WR.DDRB` (R161). -/
def execWrDdrb (v : Byte) (s : State) : Result :=
  .next (setGpio s { s.gpio with ddr := v, stale := s.gpio.ddr ^^^ v })

/-- `RD.PORTB` (R164): the stored latch, never a draw. -/
def execRdPortb (s : State) : Result := .next (readDone s s.gpio.port)

/-- `WR.PORTB` (R165). -/
def execWrPortb (v : Byte) (s : State) : Result := .next (setGpio s (writePort s.gpio v))

/-- How a pin is driven (R166). -/
inductive Drive where
  | driveHigh
  | driveLow
  | pullUp
  | hiZ
  deriving DecidableEq, Repr

/-- The drive of pin PB`i`, a function of state (R166). -/
def drive (g : Gpio) (i : Nat) : Drive :=
  match g.ddr.getLsbD i, g.port.getLsbD i with
  | true, true => .driveHigh
  | true, false => .driveLow
  | false, true => .pullUp
  | false, false => .hiZ

/-- The LED is lit exactly when its pin drives high (R168). -/
def ledLit (p : Params) (g : Gpio) : Bool := drive g p.ledBit == .driveHigh

end Sys2Proof.Machine
end

