-- ==== Sys2Proof/Machine/Timer.lean ====
section
/-! DEFINITION. The timer unit, Timer/Counter0 (41_timer_compare_match.md): the meanings of its fifteen
transactions (R130 to R144). The tick itself is in Machine/Flags.lean (R145). -/

namespace Sys2Proof.Machine

/-- A timer register is written (R131 to R144): the unit changes, and the write ends. -/
def timerWrite (s : State) (t : Tmr) : Result := .next (writeDone (setTmr s t))

/-- `RD.TCCR0A` (R130). -/
def execRdTccr0a (s : State) : Result := .next (readDone s s.tmr.tccr0a)

/-- `WR.TCCR0A` (R131): Normal or CTC; a byte that is not of the row is refused (R134). -/
def execWrTccr0a (v : Byte) (s : State) : Result :=
  require (Instr.wf (.wrTccr0a v)) .reservedValue (timerWrite s { s.tmr with tccr0a := v })

/-- `RD.TCCR0B` (R132). -/
def execRdTccr0b (s : State) : Result := .next (readDone s s.tmr.tccr0b)

/-- `WR.TCCR0B` (R133), clock codes 0 to 3; a byte that is not of the row is refused (R134). -/
def execWrTccr0b (v : Byte) (s : State) : Result :=
  require (Instr.wf (.wrTccr0b v)) .reservedValue (timerWrite s { s.tmr with tccr0b := v })

/-- `WR.TCCR0B.HI` (R133), clock codes 4 and 5; a byte that is not of the row is refused (R134). -/
def execWrTccr0bHi (v : Byte) (s : State) : Result :=
  require (Instr.wf (.wrTccr0bHi v)) .reservedValue (timerWrite s { s.tmr with tccr0b := v })

/-- `RD.TCNT0` (R135). -/
def execRdTcnt0 (s : State) : Result := .next (readDone s s.tmr.tcnt)

/-- `WR.TCNT0` (R136): the next tick is blocked. -/
def execWrTcnt0 (v : Byte) (s : State) : Result := timerWrite s { s.tmr with tcnt := v, cmBlock := true }

/-- `RD.OCR0A` (R137). -/
def execRdOcr0a (s : State) : Result := .next (readDone s s.tmr.ocra)

/-- `WR.OCR0A` (R138): no double buffering. -/
def execWrOcr0a (v : Byte) (s : State) : Result := timerWrite s { s.tmr with ocra := v }

/-- `RD.OCR0B` (R139). -/
def execRdOcr0b (s : State) : Result := .next (readDone s s.tmr.ocrb)

/-- `WR.OCR0B` (R140). -/
def execWrOcr0b (v : Byte) (s : State) : Result := timerWrite s { s.tmr with ocrb := v }

/-- `RD.TIFR0` (R141): reading clears no flag. -/
def execRdTifr0 (s : State) : Result := .next (readDone s (tifr0Byte s.tmr))

/-- `WR.TIFR0` (R142): write-one-to-clear. -/
def execWrTifr0 (v : Byte) (s : State) : Result := timerWrite s (clearTifr0 v s.tmr)

/-- `RD.TIMSK0` (R143). -/
def execRdTimsk0 (s : State) : Result := .next (readDone s s.tmr.timsk)

/-- `WR.TIMSK0` (R144): only 0x00; any other byte would enable an interrupt (R276). -/
def execWrTimsk0 (v : Byte) (s : State) : Result :=
  require (Instr.wf (.wrTimsk0 v)) .interruptEnable (timerWrite s { s.tmr with timsk := 0x00 })

end Sys2Proof.Machine
end

