-- ==== Sys2Proof/Machine/Twi.lean ====
section
/-! DEFINITION. The TWI unit (43_i2c_master_fsm.md): the meanings of its fourteen transactions (R180 to R198), and
the completion of an operation, which BUS chooses (R210 to R215). -/

namespace Sys2Proof.Machine

/-- A TWI register is written: the unit changes, and the write ends. -/
def twiWrite (s : State) (t : Twi) : Result := .next (writeDone (setTwi s t))

/-! ## Bit-rate, status and data registers (R180 to R186) -/

/-- `RD.TWBR` (R180). -/
def execRdTwbr (s : State) : Result := .next (readDone s s.twi.twbr)

/-- `WR.TWBR` (R181). -/
def execWrTwbr (v : Byte) (s : State) : Result := twiWrite s { s.twi with twbr := v }

/-- `RD.TWSR` (R182). -/
def execRdTwsr (s : State) : Result := .next (readDone s (twsrByte s.twi))

/-- `WR.TWSR` (R183): only the prescaler bits are written. -/
def execWrTwsr (v : Byte) (s : State) : Result := twiWrite s { s.twi with twps := v.extractLsb' 0 2 }

/-- An operation has been launched and has not completed (R24). -/
def isPending (t : Twi) : Bool :=
  match t.phase with
  | .pending _ => true
  | _ => false

/-- `RD.TWDR` (R184): a draw while an operation is pending. -/
def execRdTwdr (s : State) : Result :=
  if isPending s.twi then .next (readDone (advanceDraws s) (drawnByte s)) else .next (readDone s s.twi.twdr)

/-- `WR.TWDR` (R185): refused while the unit is off; while TWINT = 0 it collides. -/
def execWrTwdr (v : Byte) (s : State) : Result :=
  require (s.twi.phase != .off) .twiDisabledAccess <|
    twiWrite s (if s.twi.int then { s.twi with twdr := v, wc := false } else { s.twi with wc := true })

/-- `RD.TWCR` (R186): reading TWINT does not clear it. -/
def execRdTwcr (s : State) : Result := .next (readDone s (twcrByte s.twi))

/-! ## TWCR commands (R187 to R198) -/

/-- An operation or a STOP is in progress (R187). -/
def isBusy (t : Twi) : Bool := isPending t || t.phase == .stopping

/-- The refusals of a TWCR write, in their order, before any state changes (R187, R275); `command` is the class's
rule, none where the admission table of R191 has no entry. -/
def twcrWrite (cls : TwcrClass) (v : Byte) (command : Twi → Option Twi) (s : State) : Result :=
  require (twcrClass v != .interruptEnable) .interruptEnable <|
  require (twcrClass v == cls) .reservedValue <|
  require (!isBusy s.twi || cls == .disable) .twiBusy <|
  match command s.twi with
  | some t => twiWrite s t
  | none => .refused .twiIllegalCommand

/-- The unit waits, held, with one of these statuses. -/
def heldWith (t : Twi) (l : List Byte) : Bool := t.phase == .held && l.contains (statusOf t)

/-- The statuses after which START, STOP and STOP_START are admitted (R191, R194). -/
def frameStatuses : List Byte := [0x18, 0x20, 0x28, 0x30, 0x48, 0x58]

/-- A command launches an operation: the field update, the phase, and no status (R192, R193, R197). -/
def launch (v : Byte) (op : TwiOp) (t : Twi) : Twi :=
  { commandFields v t with phase := .pending op, tws := noStatus }

/-- DISABLE (R189). -/
def disableUnit (v : Byte) (t : Twi) : Twi :=
  { t with
    phase := .off, owns := false, en := false, int := false, wc := false, sta := false, sto := false, ie := false
    ea := v.getLsbD 6
    tws := noStatus }

/-- CONFIG (R190). -/
def configUnit (v : Byte) (t : Twi) : Twi :=
  { commandFields v t with phase := if t.phase = .off then .idle else t.phase }

/-- START: a repeated START when this master owns the bus (R192, R198). -/
def startCommand (v : Byte) (t : Twi) : Option Twi :=
  if t.phase == .off || t.phase == .idle || heldWith t (frameStatuses ++ [0x38]) then
    some (launch v (if t.owns then .repStart else .start) t)
  else none

/-- STOP_START (R193). -/
def stopStartCommand (v : Byte) (t : Twi) : Option Twi :=
  if heldWith t frameStatuses then some (launch v .stopStart t) else none

/-- STOP: released, or the recovery from a bus error (R194). -/
def stopCommand (v : Byte) (t : Twi) : Option Twi :=
  if heldWith t frameStatuses then
    some { commandFields v t with phase := .stopping, tws := noStatus }
  else if heldWith t [0x00] then
    some { commandFields v t with sto := false, owns := false, phase := .idle, tws := noStatus }
  else none

/-- CONT_ACK and CONT_NACK: the operation is told by the status (R197); `v[6]` is the TWEA just written. -/
def continueCommand (v : Byte) (t : Twi) : Option Twi :=
  if heldWith t [0x08, 0x10] then some (launch v (.sla t.twdr) t)
  else if heldWith t [0x18, 0x20, 0x28, 0x30] then some (launch v (.tx t.twdr) t)
  else if heldWith t [0x40, 0x50] then some (launch v (if v.getLsbD 6 then .rxAck else .rxNack) t)
  else if heldWith t [0x38] then
    some { commandFields v t with owns := false, phase := .idle, tws := noStatus }
  else none

/-- `WR.TWCR.DISABLE` (R189), admitted in every phase. -/
def execWrTwcrDisable (v : Byte) (s : State) : Result := twcrWrite .disable v (fun t => some (disableUnit v t)) s

/-- `WR.TWCR.CONFIG` (R190). -/
def execWrTwcrConfig (v : Byte) (s : State) : Result := twcrWrite .config v (fun t => some (configUnit v t)) s

/-- `WR.TWCR.START` (R192). -/
def execWrTwcrStart (v : Byte) (s : State) : Result := twcrWrite .start v (startCommand v) s

/-- `WR.TWCR.STOP_START` (R193). -/
def execWrTwcrStopStart (v : Byte) (s : State) : Result := twcrWrite .stopStart v (stopStartCommand v) s

/-- `WR.TWCR.STOP` (R194). -/
def execWrTwcrStop (v : Byte) (s : State) : Result := twcrWrite .stop v (stopCommand v) s

/-- `WR.TWCR.CONT_ACK` (R195). -/
def execWrTwcrContAck (v : Byte) (s : State) : Result := twcrWrite .contAck v (continueCommand v) s

/-- `WR.TWCR.CONT_NACK` (R196). -/
def execWrTwcrContNack (v : Byte) (s : State) : Result := twcrWrite .contNack v (continueCommand v) s

/-! ## Completion (R210 to R215) -/

/-- The status an operation reports when it succeeds (R211, R213). -/
def successStatus : TwiOp → Byte
  | .start => 0x08
  | .repStart => 0x10
  | .stopStart => 0x08
  | .sla b => if b.getLsbD 0 then 0x40 else 0x18
  | .tx _ => 0x28
  | .rxAck => 0x50
  | .rxNack => 0x58

/-- The NACK status of the operations that have one (R211). -/
def nackStatus : TwiOp → List Byte
  | .sla b => if b.getLsbD 0 then [0x48] else [0x20]
  | .tx _ => [0x30]
  | .start => []
  | .repStart => []
  | .stopStart => []
  | .rxAck => []
  | .rxNack => []

/-- `STATUS_OUTCOMES(op)` (R211): success, NACK, arbitration lost, bus error. -/
def statusOutcomes (op : TwiOp) : List Byte := successStatus op :: nackStatus op ++ [0x38, 0x00]

/-- The element of `STATUS_OUTCOMES(op)` that a free index chooses (R210). -/
def chosenStatus (op : TwiOp) (index : Nat) : Byte :=
  (statusOutcomes op).getD (index % (statusOutcomes op).length) (successStatus op)

/-- TWDR at completion: the byte from the bus after a receive, after 0x38 and after 0x00, else unchanged (R214). -/
def completedTwdr (st b : Byte) (t : Twi) : Byte :=
  if st == 0x50 || st == 0x58 || st == 0x38 || st == 0x00 then b else t.twdr

/-- Bus ownership at completion (R215). -/
def completedOwns (st : Byte) (t : Twi) : Bool :=
  if st == 0x38 then false else if st == 0x00 then t.owns else true

/-- The operation `op` completes with status `st`; `b` is the byte that was on the bus (R210). -/
def complete (op : TwiOp) (st b : Byte) (t : Twi) : Twi :=
  { t with
    tws := statusField st
    int := true
    phase := .held
    sto := t.sto && op != .stopStart
    twdr := completedTwdr st b t
    owns := completedOwns st t }

/-- The STOP has been executed (R212). -/
def stopExecuted (t : Twi) : Twi := { t with sto := false, owns := false, phase := .idle }

/-- BUS has a step in the phases Pending and Stopping only (R210). -/
def busEnabled (t : Twi) : Bool := isBusy t

/-- The BUS step (R210, R212): the status is a free choice out of `STATUS_OUTCOMES(op)`, the byte is free. -/
def busStep (s : State) : State :=
  match s.twi.phase with
  | .stopping => setTwi s (stopExecuted s.twi)
  | .pending op => advanceDraws (setTwi s (complete op (chosenStatus op (drawnIndex s)) (drawnByte s) s.twi))
  | .off => s
  | .idle => s
  | .held => s

end Sys2Proof.Machine
end

