-- ==== Sys2Proof/Machine/Dispatch.lean ====
section
/-! DEFINITION. The meaning of each instruction: one arm per row of the opcode map (R84). -/

namespace Sys2Proof.Machine

def exec (i : Instr) (s : State) : Host.Outcome State Fault Refusal :=
  match i with
  | .rdPinb => Sys2Proof.Machine.execRdPinb s
  | .wrPinb v => Sys2Proof.Machine.execWrPinb v s
  | .rdDdrb => Sys2Proof.Machine.execRdDdrb s
  | .wrDdrb v => Sys2Proof.Machine.execWrDdrb v s
  | .rdPortb => Sys2Proof.Machine.execRdPortb s
  | .wrPortb v => Sys2Proof.Machine.execWrPortb v s
  | .rdTifr0 => Sys2Proof.Machine.execRdTifr0 s
  | .wrTifr0 v => Sys2Proof.Machine.execWrTifr0 v s
  | .rdTccr0a => Sys2Proof.Machine.execRdTccr0a s
  | .wrTccr0a v => Sys2Proof.Machine.execWrTccr0a v s
  | .rdTccr0b => Sys2Proof.Machine.execRdTccr0b s
  | .wrTccr0b v => Sys2Proof.Machine.execWrTccr0b v s
  | .wrTccr0bHi v => Sys2Proof.Machine.execWrTccr0bHi v s
  | .rdTcnt0 => Sys2Proof.Machine.execRdTcnt0 s
  | .wrTcnt0 v => Sys2Proof.Machine.execWrTcnt0 v s
  | .rdOcr0a => Sys2Proof.Machine.execRdOcr0a s
  | .wrOcr0a v => Sys2Proof.Machine.execWrOcr0a v s
  | .rdOcr0b => Sys2Proof.Machine.execRdOcr0b s
  | .wrOcr0b v => Sys2Proof.Machine.execWrOcr0b v s
  | .rdTimsk0 => Sys2Proof.Machine.execRdTimsk0 s
  | .wrTimsk0 v => Sys2Proof.Machine.execWrTimsk0 v s
  | .rdTwbr => Sys2Proof.Machine.execRdTwbr s
  | .wrTwbr v => Sys2Proof.Machine.execWrTwbr v s
  | .rdTwsr => Sys2Proof.Machine.execRdTwsr s
  | .wrTwsr v => Sys2Proof.Machine.execWrTwsr v s
  | .rdTwdr => Sys2Proof.Machine.execRdTwdr s
  | .wrTwdr v => Sys2Proof.Machine.execWrTwdr v s
  | .rdTwcr => Sys2Proof.Machine.execRdTwcr s
  | .wrTwcrDisable v => Sys2Proof.Machine.execWrTwcrDisable v s
  | .wrTwcrConfig v => Sys2Proof.Machine.execWrTwcrConfig v s
  | .wrTwcrStart v => Sys2Proof.Machine.execWrTwcrStart v s
  | .wrTwcrStopStart v => Sys2Proof.Machine.execWrTwcrStopStart v s
  | .wrTwcrStop v => Sys2Proof.Machine.execWrTwcrStop v s
  | .wrTwcrContAck v => Sys2Proof.Machine.execWrTwcrContAck v s
  | .wrTwcrContNack v => Sys2Proof.Machine.execWrTwcrContNack v s

end Sys2Proof.Machine
end

