-- ==== Sys2Proof/Machine/Thread.lean ====
section
/-! DEFINITION. The HOST agent: one step runs one statement of its host sequence (R100, R110 to R127), and a
statement that is a bus transaction gives its word to the block (R112). -/

namespace Sys2Proof.Machine

/-! ## The block's answer to a word -/

/-- One bus transaction (R110, R111): the word is decoded (R82) and the instruction executed. -/
def transact (w : BusWord) (s : State) : Result :=
  match decode w with
  | .ok i => exec i s
  | .error .unmapped => .fault .unmapped
  | .error .interruptEnable => .refused .interruptEnable
  | .error .reservedValue => .refused .reservedValue

/-! ## The position in the text (R122) -/

/-- What is left of a procedure, with its first statement in front: an ended sequence is left, a loop's body is
entered (R122, R124, R125). -/
def settleTodo : List Todo → List Todo
  | [] => []
  | .seq .done :: k => settleTodo k
  | .seq p :: k => .seq p :: k
  | .loop 0 _ :: k => settleTodo k
  | .loop (_ + 1) .done :: k => settleTodo k
  | .loop (n + 1) body :: k => .seq body :: .loop n body :: k
  | .forever .done :: k => .forever .done :: k
  | .forever body :: k => .seq body :: .forever body :: k

/-- The running activation is the first with something left to run; a procedure that runs past its last statement
has ended, and its caller goes on (R122, R126; log 10). The outermost sequence, which nothing called, stays when it has
ended: its locals are the host's state (R43), and nothing is left of its text (R303). -/
def settleActs : List Activation → List Activation
  | [] => []
  | a :: callers =>
    match settleTodo a.todo with
    | [] => if callers.isEmpty then [{ a with todo := [] }] else settleActs callers
    | l => { a with todo := l } :: callers

/-- The host goes on with these activations. -/
def continueWith (s : State) (l : List Activation) : State := setActs s (settleActs l)

/-- Something is left of the host's text: its sequence has not ended, so HOST has a step (R303). -/
def hostEnabled (s : State) : Bool := s.thread.acts.any (fun a => !a.todo.isEmpty)

/-! ## The transaction a statement issues (R101) -/

/-- The word a statement puts on the bus; none where it is no transaction, or its bit index is above 7 (R115). `n` is
the count of draws (log 9). -/
def stmtWord (n : Nat) (vars : List (Local × Nat)) : Stmt → Option BusWord
  | .rd a _ => some (readWord a)
  | .wr a e => some (writeWord a (toByte (evalExpr n vars e)))
  | .setb a b => if b ≤ 7 then some (readWord a) else none
  | .clrb a b => if b ≤ 7 then some (readWord a) else none
  | .tglb a b => if b ≤ 7 then some (readWord a) else none
  | .tstb a b _ => if b ≤ 7 then some (readWord a) else none
  | .poll a _ _ => some (readWord a)
  | .expect a _ _ _ _ => some (readWord a)
  | .assign _ _ _ => none
  | .call _ _ _ => none
  | .ret _ => none
  | .emit _ _ => none
  | .append _ => none
  | .setSite _ => none

/-- The word of the host's next statement, none where that is no transaction. -/
def fetch (s : State) : Option BusWord :=
  match s.thread.acts with
  | [] => none
  | a :: _ =>
    match a.todo with
    | .seq (.cons st _) :: _ => stmtWord s.draws a.vars st
    | _ => none

/-- What the running procedure does with the byte of a read, or after a write; `rest` and `k` are the text after
the statement. -/
def afterStmt (x : Byte) (a : Activation) (st : Stmt) (rest : Prog) (k : List Todo) : Activation :=
  match st with
  | .rd _ y => { a with vars := bindLocal a.vars y x.toNat, todo := .seq rest :: k }
  | .wr _ _ => { a with todo := .seq rest :: k }
  | .setb r b => { a with todo := .seq (.cons (.wr r (.lit (setBitOf x b).toNat)) rest) :: k }
  | .clrb r b => { a with todo := .seq (.cons (.wr r (.lit (clearBitOf x b).toNat)) rest) :: k }
  | .tglb r b => { a with todo := .seq (.cons (.wr r (.lit (toggleBitOf x b).toNat)) rest) :: k }
  | .tstb _ b y => { a with vars := bindLocal a.vars y (testBitOf x b), todo := .seq rest :: k }
  | .poll _ m v => if x &&& m = v then { a with todo := .seq rest :: k } else a
  | .expect _ m v site e =>
    if x &&& m = v then { a with todo := .seq rest :: k }
    else { a with todo := .seq (.cons (.call (.reportAndFault site e.isSome) e.toList none) rest) :: k }
  | .assign _ _ _ => a
  | .call _ _ _ => a
  | .ret _ => a
  | .emit _ _ => a
  | .append _ => a
  | .setSite _ => a

/-- The host after its transaction: it has the byte in `rdata`. -/
def afterBus (s : State) : State :=
  match s.thread.acts with
  | [] => s
  | a :: callers =>
    match a.todo with
    | .seq (.cons st rest) :: k => continueWith s (afterStmt s.thread.rdata a st rest k :: callers)
    | _ => s

/-! ## Statements that are no transaction -/

/-- `addressWrite` and `addressRead` take a 7-bit address (R242). -/
def takesAddress : ProcName → Bool
  | .addressWrite => true
  | .addressRead => true
  | .twiInit => false
  | .start => false
  | .restart => false
  | .stop => false
  | .writeByte => false
  | .readByte => false
  | .readLastByte => false
  | .reportAndFault _ _ => false
  | .delayMilliseconds => false
  | .enterFaultState => false
  | .sensorInit => false
  | .burstRead => false

/-- The value is a 7-bit number (R242). -/
def isAddress (v : Int) : Bool := decide (0 ≤ v) && decide (v ≤ 0x7F)

/-- `CALL p(e, ...) [-> x]` (R126); an argument that is no 7-bit address is refused before any word (R242). `a` is
the caller, its text already past the call. -/
def callProc (s : State) (a : Activation) (callers : List Activation) (p : ProcName) (args : List Expr)
    (dst : Option Dest) : Result :=
  let vs := args.map (evalExpr s.draws a.vars)
  require (!takesAddress p || (vs.take 1).all isAddress) .addrTooWide <|
    .next (continueWith s
      (⟨bindParams 0 (procParams p) vs, [], [.seq (procBody Config.params p)], dst⟩ :: a :: callers))

/-- The callers of a procedure that returns a byte (R126; log 10). -/
def returnByte (n : Nat) (dst : Option Dest) (callers : List Activation) : List Activation :=
  match callers, dst with
  | c :: cs, some (.loc x) => { c with vars := bindLocal c.vars x n } :: cs
  | l, _ => l

/-- The callers of a procedure that returns its byte list (R250). -/
def returnBuf (l : List Byte) (dst : Option Dest) (callers : List Activation) : List Activation :=
  match callers, dst with
  | c :: cs, some .buf => { c with buf := l } :: cs
  | cs, _ => cs

/-- `RET [e]` (R126): nothing is left of the body, as where it has run past its last statement, and the caller has the
value. The outermost sequence has no caller: it ends with its locals (log 10). -/
def returnFrom (s : State) (a : Activation) (callers : List Activation) : RetValue → Result
  | .nothing => .next (continueWith s ({ a with todo := [] } :: callers))
  | .buf => .next (continueWith s ({ a with todo := [] } :: returnBuf a.buf a.dst callers))
  | .expr e =>
    .next (continueWith s
      ({ a with todo := [] } :: returnByte (reduceTo .byte (evalExpr s.draws a.vars e)) a.dst callers))

/-- A diagnostic event is sent (R279). -/
def emitEvent (s : State) (text : String) (v : Option Byte) : State :=
  setThread s { s.thread with emitted := s.thread.emitted ++ [(text, v)] }

/-- A statement that issues no word: local computation, a call, a return, an event; or one refused before its first
word. `a` is the running procedure, its text already past the statement. The statements that always issue a word do
not come here (hostStep): their arms leave the state as it is. -/
def controlStmt (s : State) (a : Activation) (callers : List Activation) : Stmt → Result
  | .assign w x e =>
    .next (continueWith s ({ a with vars := bindLocal a.vars x (reduceTo w (evalExpr s.draws a.vars e)) } :: callers))
  | .call p args dst => callProc s a callers p args dst
  | .ret r => returnFrom s a callers r
  | .emit text e =>
    .next (emitEvent (continueWith s (a :: callers)) text (e.map (fun d => toByte (evalExpr s.draws a.vars d))))
  | .append e =>
    .next (continueWith s ({ a with buf := a.buf ++ [toByte (evalExpr s.draws a.vars e)] } :: callers))
  | .setSite site => .next (continueWith (setThread s { s.thread with faultSite := some site }) (a :: callers))
  | .setb _ _ => .refused .badBitIndex
  | .clrb _ _ => .refused .badBitIndex
  | .tglb _ _ => .refused .badBitIndex
  | .tstb _ _ _ => .refused .badBitIndex
  | .wr _ _ => .next s
  | .rd _ _ => .next s
  | .poll _ _ _ => .next s
  | .expect _ _ _ _ _ => .next s

/-- A step of the host that issues no word (R121 to R126, R279). -/
def hostControl (s : State) : Result :=
  match s.thread.acts with
  | [] => .next s
  | a :: callers =>
    match a.todo with
    | .seq (.cons st rest) :: k => controlStmt s { a with todo := .seq rest :: k } callers st
    | .seq (.ite c thn els rest) :: k =>
      .next (continueWith s
        ({ a with todo := .seq (if evalCond s.draws a.vars c then thn else els) :: .seq rest :: k } :: callers))
    | .seq (.loop e body rest) :: k =>
      .next (continueWith s
        ({ a with todo := .loop (reduceTo .count (evalExpr s.draws a.vars e)) body :: .seq rest :: k } :: callers))
    | .seq (.forever body) :: k => .next (continueWith s ({ a with todo := .forever body :: k } :: callers))
    | _ => .next (continueWith s (a :: callers))

/-- One step of the HOST agent (R112): its next statement, a transaction or not. -/
def hostStep (s : State) : Result :=
  match fetch s with
  | some w => mapNext (transact w s) afterBus
  | none => hostControl s

end Sys2Proof.Machine
end

