-- ==== Sys2Proof/Machine/Agents.lean ====
section
/-! DEFINITION. The agents (R6): which has an enabled step, which moves, and its step. -/

namespace Sys2Proof.Machine

/-- TCLK has an enabled step exactly when the timer clock is selected (R146). -/
def tclkEnabled (s : State) : Bool := timerRuns s.tmr

/-- The TCLK step (R145): whether a blocked CTC match clears the count is a draw. -/
def tclkStep (s : State) : State := advanceDraws (setTmr s (tick (drawnBit s) s.tmr))

/-- Which agents have an enabled step (R6, R146, R210, R303); PINS has no step of its own. -/
def enabled (a : Agent) (s : State) : Bool :=
  match a with
  | .host => hostEnabled s
  | .bus => busEnabled s.twi
  | .tclk => tclkEnabled s
  | .pins => false

/-- The agent that moves: any enabled agent may (R6). `turn` says which; where its agent has no enabled step, the first
of HOST and TCLK that has one, since these two are fair (R7; log 1). BUS is not fair (R7, R216), so only its own turn
makes it move. None where neither is so. -/
def mover (s : State) : Option Agent :=
  if enabled s.turn s then some s.turn else [Agent.host, Agent.tclk].find? (fun a => enabled a s)

/-- One step of an agent. -/
def agentStep (a : Agent) (s : State) : Result :=
  match a with
  | .host => hostStep s
  | .bus => .next (busStep s)
  | .tclk => .next (tclkStep s)
  | .pins => .next s

/-- After a step the next turn is a free choice (R6, R320; log 1). -/
def passTurn (s : State) : State := advanceDraws { s with turn := Config.freeTurn s.draws }

/-- A step of the machine: nothing moves after a fault or a refusal (R270, R271) or when no agent has an enabled
step (R303); else one agent takes its step, and steps never overlap (R6, R70). Where BUS alone has a step and it is not
its turn, BUS lets the step pass and the operation stays pending (R7, R216; log 1). -/
def runStep (s : State) : Result :=
  if s.faulted || s.refused then .fault .runEnded
  else
    match mover s with
    | none => if enabled .bus s then .next (passTurn s) else .fault .noEnabledAgent
    | some a => mapNext (agentStep a s) passTurn

/-- A host sequence of one transaction, given by its word (R102). -/
def programOfWord (w : BusWord) : Prog :=
  if writeField w then .cons (.wr (addrField w) (.lit (dataField w).toNat)) .done
  else .cons (.rd (addrField w) 0) .done

/-- The host, about to issue this word as its next step, its sequence then ended; the marks of an ended run are
taken away, so that a step is possible. -/
def loadWord (s : State) (w : BusWord) : State :=
  { setActs s [⟨[], [], [.seq (programOfWord w)], none⟩] with faulted := false, refused := false, turn := .host }

end Sys2Proof.Machine
end

