-- ==== Sys2Proof/Machine/Step.lean ====
section
/-! DEFINITION. One step of the machine, and the state in which a given word is what the host issues next. -/

namespace Sys2Proof.Machine

/-- One step of the machine (R6). -/
def step : State → Host.Outcome State Fault Refusal := runStep

/-- `s` with the transaction word of these bits as the host's next statement (log 5): the block fetches no
instruction (R21, R73), the host gives it words (R102). -/
def State.withFetchWord (s : State) (nbits w : Nat) : State := loadWord s (BitVec.ofNat 25 (w % 2 ^ nbits))

end Sys2Proof.Machine
end

