-- ==== Sys2Proof/Safety.lean ====
section
/-! DEFINITION. The terms claims are stated in: invariants of the units (R25, R30, R32, R33, R36), runs and their
premises (R7, R211, R216), hangs and stuck states (R272, R273), the trace of launched operations (R254), the caller
contract of the driver (R248) and the fault state of the host (R281). -/

namespace Sys2Proof.Safety

open Sys2Proof Sys2Proof.Machine

/-! ## Invariants of the units -/

/-- The invariants of R30, clause by clause, and one the model adds to make them inductive: TWINT is 0 while the unit
is disabled (reset and DISABLE leave it so, R300, R189; log 12). -/
def TwiInv (t : Twi) : Prop :=
  (t.phase = .off ↔ t.en = false) ∧
  (t.en = true → (t.phase = .held ↔ t.int = true)) ∧
  (t.en = true → ((t.phase = .stopping ∨ t.phase = .pending .stopStart) ↔ t.sto = true)) ∧
  (t.phase ≠ .held → t.tws = 0b11111) ∧
  t.ie = false ∧
  (t.en = false → t.int = false)

/-- The statuses a completion reports (R213, less `0xF8`). -/
def completionStatuses : List Byte :=
  [0x08, 0x10, 0x18, 0x20, 0x28, 0x30, 0x38, 0x40, 0x48, 0x50, 0x58, 0x00]

/-- Bus ownership agrees with the state of the unit (R25, R215; what R198 says of the table of R191): this master does
not own the bus in Off and Idle and with status `0x38`, and owns it with every other status but `0x00`; a held status
is one that a completion reports. -/
def OwnsInv (t : Twi) : Prop :=
  ((t.phase = .off ∨ t.phase = .idle) → t.owns = false) ∧
  (t.phase = .held → statusOf t ∈ completionStatuses) ∧
  (t.phase = .held → statusOf t = 0x38 → t.owns = false) ∧
  (t.phase = .held → statusOf t ≠ 0x38 → statusOf t ≠ 0x00 → t.owns = true)

/-- The timer's control registers hold admitted values (R32, R33, R36). -/
def TimerInv (t : Tmr) : Prop :=
  (t.tccr0a = 0x00 ∨ t.tccr0a = 0x02) ∧ t.tccr0b ≤ 0x05 ∧ t.timsk = 0x00

/-! ## What a transaction does, for statements -/

/-- The instruction answers a next state in which the operation is pending. -/
def Launches (i : Instr) (s : State) (op : TwiOp) : Prop := ∃ t, exec i s = .next t ∧ t.twi.phase = .pending op

/-- The instruction answers a next state in this phase. -/
def Enters (i : Instr) (s : State) (p : Phase) : Prop := ∃ t, exec i s = .next t ∧ t.twi.phase = p

/-- The instruction is refused by this name. -/
def RefusedBy (i : Instr) (s : State) (r : Refusal) : Prop := exec i s = .refused r

/-- The unit is held with this status (notation `Held s` of 95_test_vectors.md). -/
def Held (t : Twi) (st : Byte) : Prop := t.phase = .held ∧ statusOf t = st

/-- The units of the block (R3). -/
inductive BlockUnit where
  | twi
  | tmr
  | gpio
  deriving DecidableEq, Repr

/-- The unit a transaction addresses (R62). -/
def unitOf : Instr → BlockUnit
  | .rdPinb => .gpio
  | .wrPinb _ => .gpio
  | .rdDdrb => .gpio
  | .wrDdrb _ => .gpio
  | .rdPortb => .gpio
  | .wrPortb _ => .gpio
  | .rdTifr0 => .tmr
  | .wrTifr0 _ => .tmr
  | .rdTccr0a => .tmr
  | .wrTccr0a _ => .tmr
  | .rdTccr0b => .tmr
  | .wrTccr0b _ => .tmr
  | .wrTccr0bHi _ => .tmr
  | .rdTcnt0 => .tmr
  | .wrTcnt0 _ => .tmr
  | .rdOcr0a => .tmr
  | .wrOcr0a _ => .tmr
  | .rdOcr0b => .tmr
  | .wrOcr0b _ => .tmr
  | .rdTimsk0 => .tmr
  | .wrTimsk0 _ => .tmr
  | .rdTwbr => .twi
  | .wrTwbr _ => .twi
  | .rdTwsr => .twi
  | .wrTwsr _ => .twi
  | .rdTwdr => .twi
  | .wrTwdr _ => .twi
  | .rdTwcr => .twi
  | .wrTwcrDisable _ => .twi
  | .wrTwcrConfig _ => .twi
  | .wrTwcrStart _ => .twi
  | .wrTwcrStopStart _ => .twi
  | .wrTwcrStop _ => .twi
  | .wrTwcrContAck _ => .twi
  | .wrTwcrContNack _ => .twi

/-- A read transaction: bit 24 of its word is 0 (R80). -/
def isRead (i : Instr) : Bool := !writeField (encode i)

/-- Timer ticks in sequence, each with its draw (R145). -/
def ticks (ds : List Bool) (t : Tmr) : Tmr := ds.foldl (fun u d => tick d u) t

/-! ## Runs and premises -/

/-- An infinite run: each state's step gives the next. -/
def IsRun (r : Nat → State) : Prop := ∀ n, step (r n) = .next (r (n + 1))

/-- HOST is weakly fair (R7): while its sequence has not ended it eventually moves. -/
def HostFair (r : Nat → State) : Prop :=
  ∀ n, hostEnabled (r n) = true → ∃ m, n ≤ m ∧ mover (r m) = some .host

/-- TCLK is weakly fair (R7, R146): where the clock stays selected, a tick eventually comes. -/
def TclkFair (r : Nat → State) : Prop :=
  ∀ n, (∀ m, n ≤ m → tclkEnabled (r m) = true) → ∃ m, n ≤ m ∧ mover (r m) = some .tclk

/-- `BUS_FAIR` (R8, R216): every Pending or Stopping phase ends after finitely many steps. BUS is not fair by itself:
a run in which such a phase never ends is a run of this machine. -/
def BusFair (r : Nat → State) : Prop :=
  ∀ n, busEnabled (r n).twi = true → ∃ m, n < m ∧ (r m).twi.phase ≠ (r n).twi.phase

/-- `WELL_BEHAVED_DEVICE` (R8, R211): every completion reports its success code. -/
def WellBehavedDevice : Prop := ∀ op n, chosenStatus op (Config.freeIndex n) = successStatus op

/-- Stuck (R272): the host has not ended and no agent has an enabled step. With the spin reading of POLL the host
always has one. -/
def Stuck (s : State) : Prop := hostEnabled s = true ∧ ∀ a, enabled a s = false

/-- The host stands at one statement, a poll under this mask for this value: `acts` is its whole position (R119,
R122). -/
def AtPoll (acts : List Activation) (m v : Byte) : Prop :=
  ∃ x a rest k callers, acts = x :: callers ∧ x.todo = .seq (.cons (.poll a m v) rest) :: k

/-- Hang (R273): an infinite run, HOST and TCLK fair as R7 has them, in which the host stays in one POLL forever: from some step on its
position is that statement, and every read of the poll fails. A poll that ends and comes round again in a loop
(R125) is progress, since a read of it does not fail. -/
def Hang (r : Nat → State) : Prop :=
  IsRun r ∧ HostFair r ∧ TclkFair r ∧
  ∃ n acts m v, AtPoll acts m v ∧
    ∀ i, n ≤ i →
      (r i).thread.acts = acts ∧
      (mover (r i) = some .host → (r (i + 1)).thread.rdata &&& m ≠ v)

/-- The host's sequence has ended, and these are its locals and its byte list (R43, R303). -/
def EndedWith (s : State) (vars : List (Local × Nat)) (buf : List Byte) : Prop :=
  (∃ dst, s.thread.acts = [⟨vars, buf, [], dst⟩]) ∧ hostEnabled s = false

/-! ## Which host statements are refused before a word -/

/-- The host's next statement is a bit operation with an index above 7 (R115 to R118). -/
def BadIndexNext (s : State) : Prop :=
  ∃ act callers st rest k a b,
    s.thread.acts = act :: callers ∧ act.todo = .seq (.cons st rest) :: k ∧ 7 < b ∧
    (st = .setb a b ∨ st = .clrb a b ∨ st = .tglb a b ∨ ∃ x, st = .tstb a b x)

/-- The host's next statement calls `addressWrite` or `addressRead` with an argument that is no 7-bit address (R242). -/
def WideAddressNext (s : State) : Prop :=
  ∃ act callers rest k p e args dst,
    s.thread.acts = act :: callers ∧ act.todo = .seq (.cons (.call p (e :: args) dst) rest) :: k ∧
    (p = .addressWrite ∨ p = .addressRead) ∧
    (evalExpr s.draws act.vars e < 0 ∨ 0x7F < evalExpr s.draws act.vars e)

/-! ## The trace of a frame (R254) -/

/-- The operation a step launches: the `op` entered into Pending(op), and Stopping for a STOP (R254). -/
def launched (s t : Twi) : Option Phase := if !isBusy s && isBusy t then some t.phase else none

/-! ## The caller contract (R248) -/

/-- The bus-driver operations, without their arguments. -/
inductive DriverOp where
  | start
  | restart
  | stop
  | addressWrite
  | addressRead
  | writeByte
  | readByte
  | readLastByte
  deriving DecidableEq, Repr

/-- `readByte()* readLastByte() stop()`. -/
def readTail : List DriverOp → Bool
  | .readByte :: l => readTail l
  | [.readLastByte, .stop] => true
  | _ => false

/-- `writeByte(d)*`, then `stop()` or `restart() rseg stop()`. -/
def writeTail : List DriverOp → Bool
  | .writeByte :: l => writeTail l
  | [.stop] => true
  | .restart :: .addressRead :: l => readTail l
  | _ => false

/-- A frame of the caller contract (R248): a duty of the caller, not a property of the block. -/
def frameAdmitted : List DriverOp → Bool
  | .start :: .addressWrite :: l => writeTail l
  | .start :: .addressRead :: l => readTail l
  | _ => false

/-! ## The fault state (R281) -/

/-- The registers the fault state accesses: DDRB, PORTB and the timer's (R247). -/
def faultAddrs : List Addr := [addrDdrb, addrPortb, addrTccr0a, addrTccr0b, addrOcr0a, addrTcnt0, addrTifr0]

/-- A statement of the fault state's text: an access to those registers, a call of the delay, or local computation;
no event, no fault site and no check. -/
def quietStmt (mayReturn : Bool) : Stmt → Bool
  | .rd a _ => faultAddrs.contains a
  | .wr a _ => faultAddrs.contains a
  | .setb a _ => faultAddrs.contains a
  | .clrb a _ => faultAddrs.contains a
  | .tglb a _ => faultAddrs.contains a
  | .tstb a _ _ => faultAddrs.contains a
  | .poll a _ _ => faultAddrs.contains a
  | .expect _ _ _ _ _ => false
  | .assign _ _ _ => true
  | .call p _ _ => p == .delayMilliseconds
  | .ret _ => mayReturn
  | .emit _ _ => false
  | .append _ => true
  | .setSite _ => false

/-- A text of such statements. -/
def quietProg (mayReturn : Bool) : Prog → Bool
  | .done => true
  | .cons st rest => quietStmt mayReturn st && quietProg mayReturn rest
  | .ite _ thn els rest => quietProg mayReturn thn && quietProg mayReturn els && quietProg mayReturn rest
  | .loop _ body rest => quietProg mayReturn body && quietProg mayReturn rest
  | .forever body => quietProg mayReturn body

/-- What is left of such a text. -/
def quietTodo (mayReturn : Bool) : Todo → Bool
  | .seq p => quietProg mayReturn p
  | .loop _ body => quietProg mayReturn body
  | .forever body => quietProg mayReturn body

/-- The text ends in a FOREVER, so that nothing after it is reached (R125). -/
def endlessProg : Prog → Bool
  | .done => false
  | .cons _ rest => endlessProg rest
  | .ite _ _ _ rest => endlessProg rest
  | .loop _ _ rest => endlessProg rest
  | .forever _ => true

/-- Up to and with the first endless part, what is left is quiet and does not return. -/
def endlessTodo : List Todo → Bool
  | [] => false
  | .seq p :: k => quietProg false p && (endlessProg p || endlessTodo k)
  | .loop _ body :: k => quietProg false body && endlessTodo k
  | .forever body :: _ => quietProg false body

/-- The host is in the fault state (R281): a quiet endless text runs, or procedures called from one. -/
def inFaultState : List Activation → Bool
  | [] => false
  | a :: callers => endlessTodo a.todo || (a.todo.all (quietTodo true) && inFaultState callers)

end Sys2Proof.Safety
end

