-- ==== Sys2Proof/Certificates/Slice0/Obligations.lean ====
section
/-! DEFINITION. The statements for the provers, from the numbered rules of spec/. None is about a program. -/

open Sys2Proof Sys2Proof.Machine Sys2Proof.Safety

/-! ## Encoding -/

/-- R80, R82, R84: the decoder reads back every well-formed instruction from its word, every data bit kept. -/
def Obligations.DecodeEncodeRoundTrip : Prop :=
  ∀ i : Instr, i.wf = true → decode (encode i) = .ok i

/-- R80, R84: what the decoder reads is well formed; a write's word is its instruction's word, bit for bit, and a
read's data bits are ignored. -/
def Obligations.DecodedInstructionsAreWellFormed : Prop :=
  ∀ (w : BusWord) (i : Instr), decode w = .ok i →
    i.wf = true ∧
    (w.getLsbD 24 = true → encode i = w) ∧
    (w.getLsbD 24 = false → encode i = w &&& 0x1FFFF00)

/-- R82: an address outside the map decodes to UNMAPPED; else the one row with `word & mask = match`; else reserved,
by the name of an interrupt enable or of a reserved value; the bus access answers with that fault or refusal. At most
one row matches. -/
def Obligations.DecoderFollowsTheMap : Prop :=
  ∀ w : BusWord,
    let a : Addr := w.extractLsb' 8 16
    let d : Byte := w.extractLsb' 0 8
    (a ∉ addressMap → decode w = .error .unmapped) ∧
    (∀ r ∈ rows, w &&& r.mask = r.value → decode w = .ok (r.build d)) ∧
    (a ∈ addressMap → (∀ r ∈ rows, w &&& r.mask ≠ r.value) →
      decode w = .error
        (if w.getLsbD 24 = true ∧ ((a = 0x00BC ∧ d.getLsbD 0 = true) ∨ (a = 0x006E ∧ d ≠ 0x00)) then .interruptEnable
         else .reservedValue)) ∧
    (rows.filter (fun r => w &&& r.mask == r.value)).length ≤ 1 ∧
    (∀ s : State,
      (decode w = .error .unmapped → transact w s = .fault .unmapped) ∧
      (decode w = .error .interruptEnable → transact w s = .refused .interruptEnable) ∧
      (decode w = .error .reservedValue → transact w s = .refused .reservedValue))

/-- R85: the class of every byte written to TWCR. -/
def Obligations.TwcrByteClasses : Prop :=
  ∀ v : Byte, decode (0x100BC00 ||| v.setWidth 25) =
    if v.getLsbD 0 then .error .interruptEnable
    else if !v.getLsbD 2 then
      (if !v.getLsbD 5 && !v.getLsbD 4 then .ok (.wrTwcrDisable v) else .error .reservedValue)
    else if !v.getLsbD 7 then
      (if !v.getLsbD 5 && !v.getLsbD 4 then .ok (.wrTwcrConfig v) else .error .reservedValue)
    else if v.getLsbD 5 && !v.getLsbD 4 then .ok (.wrTwcrStart v)
    else if !v.getLsbD 5 && v.getLsbD 4 then .ok (.wrTwcrStop v)
    else if v.getLsbD 5 && v.getLsbD 4 then .ok (.wrTwcrStopStart v)
    else if v.getLsbD 6 then .ok (.wrTwcrContAck v)
    else .ok (.wrTwcrContNack v)

/-- R80, R84, R88: words the spec writes out decode to what it says they are. -/
def Obligations.WordsOfTheSpecDecode : Prop :=
  decode 0x100BCA4 = .ok (.wrTwcrStart 0xA4) ∧
  decode 0x100BC94 = .ok (.wrTwcrStop 0x94) ∧
  decode 0x100BC84 = .ok (.wrTwcrContNack 0x84) ∧
  decode 0x100BCC4 = .ok (.wrTwcrContAck 0xC4) ∧
  decode 0x000B900 = .ok .rdTwsr ∧
  decode 0x000BC00 = .ok .rdTwcr ∧
  decode 0x100BBD0 = .ok (.wrTwdr 0xD0) ∧
  decode 0x100B80C = .ok (.wrTwbr 0x0C) ∧
  decode 0x1004402 = .ok (.wrTccr0a 0x02) ∧
  decode 0x1004503 = .ok (.wrTccr0b 0x03) ∧
  decode 0x10047F9 = .ok (.wrOcr0a 0xF9) ∧
  decode 0x0003500 = .ok .rdTifr0 ∧
  decode 0x1002420 = .ok (.wrDdrb 0x20) ∧
  decode 0x0002300 = .ok .rdPinb

/-- R62, R63: a read and a write of an address outside the map raise `Fault(UNMAPPED)`, whatever the byte and the
state. -/
def Obligations.UnmappedAddressesFault : Prop :=
  ∀ (a : Addr) (v : Byte) (s : State),
    a ∉ ([0x0023, 0x0024, 0x0025, 0x0035, 0x0044, 0x0045, 0x0046, 0x0047, 0x0048, 0x006E, 0x00B8, 0x00B9, 0x00BB,
      0x00BC] : List Addr) →
    transact (busWord false a 0x00) s = .fault .unmapped ∧ transact (busWord true a v) s = .fault .unmapped

/-! ## The step -/

/-- R82, R110 to R112, R6: where the host moves and its next statement issues the word of an instruction, a step is that
instruction's meaning, then the host goes on with the byte read; where it issues a word of none, the fault or refusal
of that word; where it issues none, the statement's own step; where BUS or TCLK moves, its step. The model's own: the
turn passes after each (passTurn, log 1), the byte read reaches the host through `rdata` (log 3), how the host's text
goes on (afterBus, log 18), and a step BUS lets pass where it alone has one and not the turn (log 1). -/
def Obligations.StepRunsTheDecodedInstruction : Prop :=
  ∀ s : State, s.faulted = false → s.refused = false →
    (∀ (w : BusWord) (i : Instr), mover s = some .host → fetch s = some w → decode w = .ok i →
      step s = mapNext (exec i s) (fun t => passTurn (afterBus t))) ∧
    (∀ w : BusWord, mover s = some .host → fetch s = some w → decode w = .error .unmapped →
      step s = .fault .unmapped) ∧
    (∀ w : BusWord, mover s = some .host → fetch s = some w → decode w = .error .interruptEnable →
      step s = .refused .interruptEnable) ∧
    (∀ w : BusWord, mover s = some .host → fetch s = some w → decode w = .error .reservedValue →
      step s = .refused .reservedValue) ∧
    (mover s = some .host → fetch s = none → step s = mapNext (hostControl s) passTurn) ∧
    (mover s = some .bus → step s = .next (passTurn (busStep s))) ∧
    (mover s = some .tclk → step s = .next (passTurn (tclkStep s))) ∧
    (mover s = none → enabled .bus s = true → step s = .next (passTurn s)) ∧
    (mover s = none → enabled .bus s = false → step s = .fault .noEnabledAgent)

/-- Log 5: the state with a given word is one in which the host issues exactly that word next, everything of the
block as it was. -/
def Obligations.FetchWordIsIssuedNext : Prop :=
  ∀ (s : State) (w : BusWord), (w.getLsbD 24 = false → w.extractLsb' 0 8 = (0x00 : Byte)) →
    let t := s.withFetchWord 32 w.toNat
    fetch t = some w ∧ mover t = some .host ∧ t.faulted = false ∧ t.refused = false ∧
    t.twi = s.twi ∧ t.tmr = s.tmr ∧ t.gpio = s.gpio ∧ t.draws = s.draws

/-- R44, R270, R271: `Fault(UNMAPPED)` and a refusal change nothing but their mark, after either no agent takes a
step, and no step clears a mark. -/
def Obligations.FaultsAndRefusalsEndTheRun : Prop :=
  ∀ s : State,
    (step s = .fault .unmapped →
      endState s (step s) = { s with faulted := true } ∧ step (endState s (step s)) = .fault .runEnded) ∧
    (∀ r, step s = .refused r →
      endState s (step s) = { s with refused := true } ∧ step (endState s (step s)) = .fault .runEnded) ∧
    (∀ t, step s = .next t → t.faulted = s.faulted ∧ t.refused = s.refused) ∧
    State.reset.faulted = false ∧ State.reset.refused = false

/-- R6, R145, R210, R121: one agent moves at most; BUS changes the TWI unit only, TCLK the timer only, and a host
statement that is no transaction, and a step that BUS lets pass (R7, log 1), nothing of the block. -/
def Obligations.AgentsChangeOnlyTheirOwn : Prop :=
  ∀ s t : State, step s = .next t →
    (mover s = some .bus → t.tmr = s.tmr ∧ t.gpio = s.gpio ∧ t.thread = s.thread) ∧
    (mover s = some .tclk → t.twi = s.twi ∧ t.gpio = s.gpio ∧ t.thread = s.thread) ∧
    (mover s = some .host → fetch s = none → t.twi = s.twi ∧ t.tmr = s.tmr ∧ t.gpio = s.gpio) ∧
    (mover s = none → t.twi = s.twi ∧ t.tmr = s.tmr ∧ t.gpio = s.gpio ∧ t.thread = s.thread) ∧
    mover s ≠ some .pins

/-- R272: with the spin reading of POLL (log 17) the host always has a step, so no state is stuck, and while the host
has not ended some agent moves. -/
def Obligations.NoStateIsStuck : Prop :=
  ∀ s : State, ¬ Stuck s ∧ (hostEnabled s = true → ∃ a, mover s = some a)

/-- R146, R210, R303: which agents have an enabled step. R6, R7 and the model's choice of log 1: who moves is the agent
of the turn where it has a step, whichever it is, and always one that has a step; nobody moves only where no agent has
a step, or BUS alone has one and it is not its turn. -/
def Obligations.EnabledAgents : Prop :=
  ∀ s : State,
    (enabled .tclk s = true ↔ s.tmr.tccr0b &&& 0x07 ≠ 0x00) ∧
    (enabled .bus s = true ↔ (∃ op, s.twi.phase = .pending op) ∨ s.twi.phase = .stopping) ∧
    (enabled .host s = true ↔ ∃ act ∈ s.thread.acts, act.todo ≠ []) ∧
    enabled .pins s = false ∧
    (enabled s.turn s = true → mover s = some s.turn) ∧
    (∀ a, mover s = some a → enabled a s = true) ∧
    (mover s = none ↔ enabled .host s = false ∧ enabled .tclk s = false ∧ (enabled .bus s = false ∨ s.turn ≠ .bus))

/-! ## Reset -/

/-- R300: every field at the value of the table. -/
def Obligations.ResetValues : Prop :=
  twcrByte State.reset.twi = 0x00 ∧ twsrByte State.reset.twi = 0xF8 ∧
  State.reset.twi.tws = 0b11111 ∧ State.reset.twi.twps = 0b00 ∧
  State.reset.twi.int = false ∧ State.reset.twi.ea = false ∧ State.reset.twi.sta = false ∧
  State.reset.twi.sto = false ∧ State.reset.twi.wc = false ∧ State.reset.twi.en = false ∧ State.reset.twi.ie = false ∧
  State.reset.twi.twdr = 0xFF ∧ State.reset.twi.twbr = 0x00 ∧
  State.reset.twi.phase = .off ∧ State.reset.twi.owns = false ∧
  State.reset.tmr.tccr0a = 0x00 ∧ State.reset.tmr.tccr0b = 0x00 ∧ State.reset.tmr.tcnt = 0x00 ∧
  State.reset.tmr.ocra = 0x00 ∧ State.reset.tmr.ocrb = 0x00 ∧ State.reset.tmr.timsk = 0x00 ∧
  State.reset.tmr.ocfa = false ∧ State.reset.tmr.ocfb = false ∧ State.reset.tmr.tov = false ∧
  State.reset.tmr.cmBlock = false ∧
  State.reset.gpio.ddr = 0x00 ∧ State.reset.gpio.port = 0x00 ∧ State.reset.gpio.stale = 0x00 ∧
  (∀ t, exec .rdPinb State.reset = .next t → t.thread.rdata = Config.freeByte State.reset.draws) ∧
  State.reset.faulted = false ∧ State.reset.refused = false ∧
  drive State.reset.gpio 5 = .hiZ ∧ enabled .tclk State.reset = false

/-- R302: the host stands at the first statement of PROG main, without locals, no fault site, nothing emitted; R249: PROG
main calls twiInit, then sensorInit, then burstRead for ever. -/
def Obligations.HostAtReset : Prop :=
  State.reset.thread.acts = [⟨[], [], [.seq progMain], none⟩] ∧
  progMain = .cons (.call .twiInit [] none) (.cons (.call .sensorInit [] none)
    (.forever (.cons (.call .burstRead [] (some .buf)) .done))) ∧
  State.reset.thread.faultSite = none ∧ State.reset.thread.emitted = []

/-! ## GPIO -/

/-- R160, R164: the latches read back as stored, in every state; a read clears the stale mask (R167). -/
def Obligations.PortLatchReads : Prop :=
  encode .rdDdrb = 0x0002400 ∧ encode .rdPortb = 0x0002500 ∧
  ∀ s : State,
    exec .rdDdrb s = .next { s with
      thread := { s.thread with rdata := s.gpio.ddr }, gpio := { s.gpio with stale := 0x00 } } ∧
    exec .rdPortb s = .next { s with
      thread := { s.thread with rdata := s.gpio.port }, gpio := { s.gpio with stale := 0x00 } }

/-- R162: every bit of a PINB read is the port bit of an output whose level is not stale, else a draw. -/
def Obligations.PinbReadsLevelsOrDraws : Prop :=
  encode .rdPinb = 0x0002300 ∧
  ∀ s : State, ∃ x : Byte,
    exec .rdPinb s = .next { s with
      thread := { s.thread with rdata := x }, gpio := { s.gpio with stale := 0x00 }, draws := s.draws + 1 } ∧
    ∀ i < 8, x.getLsbD i =
      if s.gpio.stale.getLsbD i then (Config.freeByte s.draws).getLsbD i
      else if s.gpio.ddr.getLsbD i then s.gpio.port.getLsbD i
      else (Config.freeByte s.draws).getLsbD i

/-- R161, R163, R165: the writes of the port, each with the stale mask of the bits it changed. -/
def Obligations.PortWrites : Prop :=
  ∀ (s : State) (v : Byte),
    encode (.wrDdrb v) = busWord true 0x0024 v ∧ encode (.wrPortb v) = busWord true 0x0025 v ∧
    encode (.wrPinb v) = busWord true 0x0023 v ∧
    exec (.wrDdrb v) s = .next { s with gpio := { s.gpio with ddr := v, stale := s.gpio.ddr ^^^ v } } ∧
    exec (.wrPortb v) s = .next { s with gpio := { s.gpio with port := v, stale := s.gpio.port ^^^ v } } ∧
    exec (.wrPinb v) s = .next { s with gpio := { s.gpio with
      port := s.gpio.port ^^^ v, stale := s.gpio.port ^^^ (s.gpio.port ^^^ v) } }

/-- R167: after a write to DDRB, PORTB or PINB the stale mask is the bits of DDRB or PORTB it changed, after every other
transaction it is clear; BUS and TCLK steps leave it. -/
def Obligations.StaleMaskAfterEveryTransaction : Prop :=
  (∀ (i : Instr) (s t : State), exec i s = .next t →
    t.gpio.stale = (s.gpio.ddr ^^^ t.gpio.ddr) ||| (s.gpio.port ^^^ t.gpio.port) ∧
    ((∀ v, i ≠ .wrDdrb v ∧ i ≠ .wrPortb v ∧ i ≠ .wrPinb v) → t.gpio.stale = 0x00)) ∧
  (∀ s : State, (busStep s).gpio.stale = s.gpio.stale ∧ (tclkStep s).gpio.stale = s.gpio.stale)

/-- R166, R168: the drive of each pin, and the LED at bit 5. -/
def Obligations.PinDriveAndLed : Prop :=
  ∀ (g : Gpio) (i : Nat),
    (drive g i = .driveHigh ↔ g.ddr.getLsbD i = true ∧ g.port.getLsbD i = true) ∧
    (drive g i = .driveLow ↔ g.ddr.getLsbD i = true ∧ g.port.getLsbD i = false) ∧
    (drive g i = .pullUp ↔ g.ddr.getLsbD i = false ∧ g.port.getLsbD i = true) ∧
    (drive g i = .hiZ ↔ g.ddr.getLsbD i = false ∧ g.port.getLsbD i = false) ∧
    (ledLit Config.params g = true ↔ drive g 5 = .driveHigh)

/-! ## Timer -/

/-- R130, R132, R135, R137, R139, R141, R143: the timer's registers read back, no flag changed; TIMSK0 reads 0x00 in
every state that meets the invariant. -/
def Obligations.TimerRegisterReads : Prop :=
  encode .rdTccr0a = 0x0004400 ∧ encode .rdTccr0b = 0x0004500 ∧ encode .rdTcnt0 = 0x0004600 ∧
  encode .rdOcr0a = 0x0004700 ∧ encode .rdOcr0b = 0x0004800 ∧ encode .rdTifr0 = 0x0003500 ∧
  encode .rdTimsk0 = 0x0006E00 ∧
  ∀ s : State,
    let got (v : Byte) : State :=
      { s with thread := { s.thread with rdata := v }, gpio := { s.gpio with stale := 0x00 } }
    exec .rdTccr0a s = .next (got s.tmr.tccr0a) ∧
    exec .rdTccr0b s = .next (got s.tmr.tccr0b) ∧
    exec .rdTcnt0 s = .next (got s.tmr.tcnt) ∧
    exec .rdOcr0a s = .next (got s.tmr.ocra) ∧
    exec .rdOcr0b s = .next (got s.tmr.ocrb) ∧
    exec .rdTimsk0 s = .next (got s.tmr.timsk) ∧
    (TimerInv s.tmr → exec .rdTimsk0 s = .next (got 0x00)) ∧
    exec .rdTifr0 s = .next (got
      ((if s.tmr.ocfb then 0x04 else 0x00) ||| (if s.tmr.ocfa then 0x02 else 0x00) |||
        (if s.tmr.tov then 0x01 else 0x00)))

/-- R131, R133, R134: a TCCR0A byte other than 0x00 and 0x02 and a TCCR0B byte above 0x05 are refused, whatever the
state; the admitted ones are stored. -/
def Obligations.TimerControlBytes : Prop :=
  ∀ (s : State) (v : Byte),
    transact (busWord true 0x0044 v) s =
      (if v = 0x00 ∨ v = 0x02 then
        .next { s with tmr := { s.tmr with tccr0a := v }, gpio := { s.gpio with stale := 0x00 } }
       else .refused .reservedValue) ∧
    transact (busWord true 0x0045 v) s =
      (if v ≤ 0x05 then
        .next { s with tmr := { s.tmr with tccr0b := v }, gpio := { s.gpio with stale := 0x00 } }
       else .refused .reservedValue)

/-- R131, R133, R144: the control writes complete on the bytes of their rows, and are refused on no other ground. -/
def Obligations.TimerControlWrites : Prop :=
  ∀ (s : State) (v : Byte),
    encode (.wrTccr0a v) = busWord true 0x0044 v ∧ encode (.wrTccr0b v) = busWord true 0x0045 v ∧
    encode (.wrTccr0bHi v) = busWord true 0x0045 v ∧ encode (.wrTimsk0 v) = busWord true 0x006E v ∧
    (v = 0x00 ∨ v = 0x02 → exec (.wrTccr0a v) s =
      .next { s with tmr := { s.tmr with tccr0a := v }, gpio := { s.gpio with stale := 0x00 } }) ∧
    (v ≤ 0x03 → exec (.wrTccr0b v) s =
      .next { s with tmr := { s.tmr with tccr0b := v }, gpio := { s.gpio with stale := 0x00 } }) ∧
    (v = 0x04 ∨ v = 0x05 → exec (.wrTccr0bHi v) s =
      .next { s with tmr := { s.tmr with tccr0b := v }, gpio := { s.gpio with stale := 0x00 } }) ∧
    exec (.wrTimsk0 0x00) s =
      .next { s with tmr := { s.tmr with timsk := 0x00 }, gpio := { s.gpio with stale := 0x00 } } ∧
    (v ≠ 0x00 → transact (busWord true 0x006E v) s = .refused .interruptEnable)

/-- R136, R138, R140: the count and the compare values; a count write blocks the next tick's compare. -/
def Obligations.TimerDataWrites : Prop :=
  ∀ (s : State) (v : Byte),
    encode (.wrTcnt0 v) = busWord true 0x0046 v ∧ encode (.wrOcr0a v) = busWord true 0x0047 v ∧
    encode (.wrOcr0b v) = busWord true 0x0048 v ∧
    exec (.wrTcnt0 v) s = .next { s with
      tmr := { s.tmr with tcnt := v, cmBlock := true }, gpio := { s.gpio with stale := 0x00 } } ∧
    exec (.wrOcr0a v) s = .next { s with
      tmr := { s.tmr with ocra := v }, gpio := { s.gpio with stale := 0x00 } } ∧
    exec (.wrOcr0b v) s = .next { s with
      tmr := { s.tmr with ocrb := v }, gpio := { s.gpio with stale := 0x00 } }

/-- R142: write-one-to-clear; a 0 bit leaves its flag, bits 7:3 are ignored. -/
def Obligations.Tifr0IsWriteOneToClear : Prop :=
  ∀ (s : State) (v : Byte),
    encode (.wrTifr0 v) = busWord true 0x0035 v ∧
    exec (.wrTifr0 v) s = .next { s with
      tmr := { s.tmr with
        tov := if v.getLsbD 0 then false else s.tmr.tov
        ocfa := if v.getLsbD 1 then false else s.tmr.ocfa
        ocfb := if v.getLsbD 2 then false else s.tmr.ocfb }
      gpio := { s.gpio with stale := 0x00 } }

/-- R145: when a tick can come, and the tick, clause by clause; a blocked match in CTC leaves open whether the count clears. -/
def Obligations.TimerTick : Prop :=
  ∀ s : State,
    let m := s.tmr
    let t := (tclkStep s).tmr
    let ctc := m.tccr0b.getLsbD 3 = false ∧ m.tccr0a &&& 0x03 = 0x02
    (enabled .tclk s = true ↔ m.tccr0b &&& 0x07 ≠ 0x00) ∧
    tclkStep s = { s with
      tmr := { m with ocfa := t.ocfa, ocfb := t.ocfb, tov := t.tov, tcnt := t.tcnt, cmBlock := false }
      draws := s.draws + 1 } ∧
    (t.ocfa = true ↔ m.ocfa = true ∨ (m.cmBlock = false ∧ m.tcnt = m.ocra)) ∧
    (t.ocfb = true ↔ m.ocfb = true ∨ (m.cmBlock = false ∧ m.tcnt = m.ocrb)) ∧
    (t.tov = true ↔ m.tov = true ∨ (m.tcnt = 0xFF ∧ t.tcnt = 0x00)) ∧
    (ctc → m.tcnt = m.ocra → m.cmBlock = false → t.tcnt = 0x00) ∧
    (ctc → m.tcnt = m.ocra → m.cmBlock = true →
      t.tcnt = if Config.freeBit s.draws then 0x00 else m.tcnt + 1) ∧
    (¬ (ctc ∧ m.tcnt = m.ocra) → t.tcnt = m.tcnt + 1)

/-- R147: in CTC, from a count of 0, with the compare not blocked or, after a write of 0 to TCNT0, blocked and a
threshold other than 0, the flag is set at the (ocra + 1)-th tick and not before, whatever the draws; the count is
then 0 again, the compare not blocked and the mode and threshold the same, so that the next match is as far. -/
def Obligations.CompareMatchPeriod : Prop :=
  ∀ (t : Tmr) (ds : List Bool),
    ctcMode t = true → t.tcnt = 0x00 → t.ocfa = false → (t.cmBlock = true → t.ocra ≠ 0x00) →
    (ds.length ≤ t.ocra.toNat → (ticks ds t).ocfa = false ∧ (ticks ds t).tcnt.toNat = ds.length) ∧
    (ds.length = t.ocra.toNat + 1 →
      (ticks ds t).ocfa = true ∧ (ticks ds t).tcnt = 0x00 ∧ (ticks ds t).cmBlock = false ∧
      ctcMode (ticks ds t) = true ∧ (ticks ds t).ocra = t.ocra)

/-- R148: in CTC with the count above the threshold, the count runs to 0xFF and wraps, setting TOV0, counts on to the
threshold, which it reaches after (256 - tcnt + ocra) ticks, and the flag is set at the (257 - tcnt + ocra)-th tick and
not before. -/
def Obligations.CountAboveTheThreshold : Prop :=
  ∀ (t : Tmr) (ds : List Bool),
    ctcMode t = true → t.ocra.toNat < t.tcnt.toNat → t.ocfa = false →
    (ds.length < 256 - t.tcnt.toNat → (ticks ds t).tcnt.toNat = t.tcnt.toNat + ds.length) ∧
    (ds.length = 256 - t.tcnt.toNat → (ticks ds t).tcnt = 0x00 ∧ (ticks ds t).tov = true) ∧
    (256 - t.tcnt.toNat ≤ ds.length → ds.length ≤ 256 - t.tcnt.toNat + t.ocra.toNat →
      (ticks ds t).tcnt.toNat = ds.length - (256 - t.tcnt.toNat)) ∧
    (ds.length < 257 - t.tcnt.toNat + t.ocra.toNat → (ticks ds t).ocfa = false) ∧
    (ds.length = 257 - t.tcnt.toNat + t.ocra.toNat → (ticks ds t).ocfa = true ∧ (ticks ds t).tcnt = 0x00)

/-! ## TWI registers -/

/-- R180, R182, R186: TWBR, TWSR and TWCR as read, bit by bit, in every state. -/
def Obligations.TwiRegisterReads : Prop :=
  encode .rdTwbr = 0x000B800 ∧ encode .rdTwsr = 0x000B900 ∧ encode .rdTwcr = 0x000BC00 ∧
  ∀ s : State,
    let got (v : Byte) : State :=
      { s with thread := { s.thread with rdata := v }, gpio := { s.gpio with stale := 0x00 } }
    exec .rdTwbr s = .next (got s.twi.twbr) ∧
    exec .rdTwsr s = .next (got ((s.twi.tws.setWidth 8 <<< 3) ||| s.twi.twps.setWidth 8)) ∧
    exec .rdTwcr s = .next (got
      ((if s.twi.int then 0x80 else 0x00) ||| (if s.twi.ea then 0x40 else 0x00) |||
       (if s.twi.sta then 0x20 else 0x00) ||| (if s.twi.sto then 0x10 else 0x00) |||
       (if s.twi.wc then 0x08 else 0x00) ||| (if s.twi.en then 0x04 else 0x00) |||
       (if s.twi.ie then 0x01 else 0x00)))

/-- R184: a TWDR read is a draw while an operation is pending, else the register. -/
def Obligations.TwdrReads : Prop :=
  encode .rdTwdr = 0x000BB00 ∧
  ∀ s : State,
    ((∃ op, s.twi.phase = .pending op) → exec .rdTwdr s = .next { s with
      thread := { s.thread with rdata := Config.freeByte s.draws }
      gpio := { s.gpio with stale := 0x00 }, draws := s.draws + 1 }) ∧
    ((∀ op, s.twi.phase ≠ .pending op) → exec .rdTwdr s = .next { s with
      thread := { s.thread with rdata := s.twi.twdr }, gpio := { s.gpio with stale := 0x00 } })

/-- R181, R183: TWBR is stored whole, of TWSR only the prescaler bits are. -/
def Obligations.TwbrAndTwsrWrites : Prop :=
  ∀ (s : State) (v : Byte),
    encode (.wrTwbr v) = busWord true 0x00B8 v ∧ encode (.wrTwsr v) = busWord true 0x00B9 v ∧
    exec (.wrTwbr v) s = .next { s with
      twi := { s.twi with twbr := v }, gpio := { s.gpio with stale := 0x00 } } ∧
    exec (.wrTwsr v) s = .next { s with
      twi := { s.twi with twps := v.extractLsb' 0 2 }, gpio := { s.gpio with stale := 0x00 } }

/-- R185: a TWDR write is taken while TWINT = 1, collides while TWINT = 0, and is refused in phase Off. -/
def Obligations.TwdrWrites : Prop :=
  ∀ (s : State) (v : Byte),
    encode (.wrTwdr v) = busWord true 0x00BB v ∧
    (s.twi.phase = .off → exec (.wrTwdr v) s = .refused .twiDisabledAccess) ∧
    (s.twi.phase ≠ .off → s.twi.int = true → exec (.wrTwdr v) s = .next { s with
      twi := { s.twi with twdr := v, wc := false }, gpio := { s.gpio with stale := 0x00 } }) ∧
    (s.twi.phase ≠ .off → s.twi.int = false → exec (.wrTwdr v) s = .next { s with
      twi := { s.twi with wc := true }, gpio := { s.gpio with stale := 0x00 } })

/-- R90: the bits ignored inside admitted writes, TWCR 3 and 1, TWSR 7:2, TIFR0 7:3, change nothing; the reserved ones
read 0. -/
def Obligations.ReservedBitsAreIgnoredAndReadZero : Prop :=
  (∀ (s : State) (v : Byte), transact (busWord true 0x00BC v) s = transact (busWord true 0x00BC (v &&& 0xF5)) s) ∧
  (∀ (s : State) (v : Byte), exec (.wrTwsr v) s = exec (.wrTwsr (v &&& 0x03)) s) ∧
  (∀ (s : State) (v : Byte), exec (.wrTifr0 v) s = exec (.wrTifr0 (v &&& 0x07)) s) ∧
  (∀ s t : State, exec .rdTwcr s = .next t → t.thread.rdata.getLsbD 1 = false) ∧
  (∀ s t : State, exec .rdTwsr s = .next t → t.thread.rdata.getLsbD 2 = false) ∧
  (∀ s t : State, exec .rdTifr0 s = .next t → ∀ i, 3 ≤ i → t.thread.rdata.getLsbD i = false)

/-! ## TWCR commands -/

/-- R187, R275: the order of the refusals of a TWCR write, before any state changes. -/
def Obligations.TwcrRefusalOrder : Prop :=
  ∀ (s : State) (v : Byte),
    let busy := (∃ op, s.twi.phase = .pending op) ∨ s.twi.phase = .stopping
    let reserved := v.getLsbD 0 = false ∧
      ((v.getLsbD 2 = false ∧ (v.getLsbD 5 = true ∨ v.getLsbD 4 = true)) ∨
       (v.getLsbD 2 = true ∧ v.getLsbD 7 = false ∧ (v.getLsbD 5 = true ∨ v.getLsbD 4 = true)))
    (v.getLsbD 0 = true → transact (busWord true 0x00BC v) s = .refused .interruptEnable) ∧
    (reserved → transact (busWord true 0x00BC v) s = .refused .reservedValue) ∧
    (v.getLsbD 0 = false → ¬ reserved → busy → v.getLsbD 2 = true →
      transact (busWord true 0x00BC v) s = .refused .twiBusy) ∧
    (v.getLsbD 0 = false → ¬ reserved → (¬ busy ∨ v.getLsbD 2 = false) →
      transact (busWord true 0x00BC v) s = .refused .twiIllegalCommand ∨
      ∃ t, transact (busWord true 0x00BC v) s = .next t)

/-- R189: DISABLE is admitted in every phase. -/
def Obligations.DisableCommand : Prop :=
  ∀ (s : State) (v : Byte), v &&& 0x35 = 0x00 →
    encode (.wrTwcrDisable v) = busWord true 0x00BC v ∧
    exec (.wrTwcrDisable v) s = .next { s with
      twi := { s.twi with
        phase := .off, owns := false, en := false, int := false, wc := false, sta := false, sto := false, ie := false
        ea := v.getLsbD 6, tws := 0b11111 }
      gpio := { s.gpio with stale := 0x00 } }

/-- R190: CONFIG enables the unit or sets TWEA, and launches nothing; refused while busy. -/
def Obligations.ConfigCommand : Prop :=
  ∀ (s : State) (v : Byte), v &&& 0xB5 = 0x04 →
    encode (.wrTwcrConfig v) = busWord true 0x00BC v ∧
    (s.twi.phase = .off ∨ s.twi.phase = .idle ∨ s.twi.phase = .held → exec (.wrTwcrConfig v) s = .next { s with
      twi := { s.twi with
        ea := v.getLsbD 6, sta := false, sto := false, en := true, ie := false
        phase := if s.twi.phase = .off then .idle else s.twi.phase }
      gpio := { s.gpio with stale := 0x00 } }) ∧
    (s.twi.phase = .stopping ∨ (∃ op, s.twi.phase = .pending op) → exec (.wrTwcrConfig v) s = .refused .twiBusy)

/-- R192: START launches OpStart, or OpRepStart where this master owns the bus. -/
def Obligations.StartCommand : Prop :=
  ∀ (s : State) (v : Byte), v &&& 0xB5 = 0xA4 →
    encode (.wrTwcrStart v) = busWord true 0x00BC v ∧
    (s.twi.phase = .off ∨ s.twi.phase = .idle ∨
      (s.twi.phase = .held ∧ statusOf s.twi ∈ ([0x18, 0x20, 0x28, 0x30, 0x38, 0x48, 0x58] : List Byte)) →
      exec (.wrTwcrStart v) s = .next { s with
        twi := { s.twi with
          ea := v.getLsbD 6, sta := true, sto := false, en := true, ie := false, int := false
          phase := .pending (if s.twi.owns then .repStart else .start), tws := 0b11111 }
        gpio := { s.gpio with stale := 0x00 } }) ∧
    (s.twi.phase = .held → statusOf s.twi ∈ ([0x08, 0x10, 0x40, 0x50, 0x00] : List Byte) →
      exec (.wrTwcrStart v) s = .refused .twiIllegalCommand) ∧
    (s.twi.phase = .stopping ∨ (∃ op, s.twi.phase = .pending op) → exec (.wrTwcrStart v) s = .refused .twiBusy)

/-- R193: STOP_START launches OpStopStart. -/
def Obligations.StopStartCommand : Prop :=
  ∀ (s : State) (v : Byte), v &&& 0xB5 = 0xB4 →
    encode (.wrTwcrStopStart v) = busWord true 0x00BC v ∧
    (s.twi.phase = .held → statusOf s.twi ∈ ([0x18, 0x20, 0x28, 0x30, 0x48, 0x58] : List Byte) →
      exec (.wrTwcrStopStart v) s = .next { s with
        twi := { s.twi with
          ea := v.getLsbD 6, sta := true, sto := true, en := true, ie := false, int := false
          phase := .pending .stopStart, tws := 0b11111 }
        gpio := { s.gpio with stale := 0x00 } }) ∧
    (s.twi.phase = .off ∨ s.twi.phase = .idle ∨
      (s.twi.phase = .held ∧ statusOf s.twi ∉ ([0x18, 0x20, 0x28, 0x30, 0x48, 0x58] : List Byte)) →
      exec (.wrTwcrStopStart v) s = .refused .twiIllegalCommand) ∧
    (s.twi.phase = .stopping ∨ (∃ op, s.twi.phase = .pending op) → exec (.wrTwcrStopStart v) s = .refused .twiBusy)

/-- R194: STOP releases the bus, or recovers from a bus error. -/
def Obligations.StopCommand : Prop :=
  ∀ (s : State) (v : Byte), v &&& 0xB5 = 0x94 →
    encode (.wrTwcrStop v) = busWord true 0x00BC v ∧
    (s.twi.phase = .held → statusOf s.twi ∈ ([0x18, 0x20, 0x28, 0x30, 0x48, 0x58] : List Byte) →
      exec (.wrTwcrStop v) s = .next { s with
        twi := { s.twi with
          ea := v.getLsbD 6, sta := false, sto := true, en := true, ie := false, int := false
          phase := .stopping, tws := 0b11111 }
        gpio := { s.gpio with stale := 0x00 } }) ∧
    (s.twi.phase = .held → statusOf s.twi = 0x00 →
      exec (.wrTwcrStop v) s = .next { s with
        twi := { s.twi with
          ea := v.getLsbD 6, sta := false, sto := false, en := true, ie := false, int := false
          phase := .idle, owns := false, tws := 0b11111 }
        gpio := { s.gpio with stale := 0x00 } }) ∧
    (s.twi.phase = .off ∨ s.twi.phase = .idle ∨
      (s.twi.phase = .held ∧ statusOf s.twi ∈ ([0x08, 0x10, 0x38, 0x40, 0x50] : List Byte)) →
      exec (.wrTwcrStop v) s = .refused .twiIllegalCommand) ∧
    (s.twi.phase = .stopping ∨ (∃ op, s.twi.phase = .pending op) → exec (.wrTwcrStop v) s = .refused .twiBusy)

/-- R195, R196, R197: CONT, with either value of TWEA, launches the operation the status tells. -/
def Obligations.ContinueCommands : Prop :=
  ∀ (s : State) (v : Byte) (i : Instr),
    (i = .wrTwcrContAck v ∧ v &&& 0xF5 = 0xC4) ∨ (i = .wrTwcrContNack v ∧ v &&& 0xF5 = 0x84) →
    let after (op : TwiOp) : State :=
      { s with
        twi := { s.twi with
          ea := v.getLsbD 6, sta := false, sto := false, en := true, ie := false, int := false
          phase := .pending op, tws := 0b11111 }
        gpio := { s.gpio with stale := 0x00 } }
    (s.twi.phase = .held → statusOf s.twi ∈ ([0x08, 0x10] : List Byte) →
      exec i s = .next (after (.sla s.twi.twdr))) ∧
    (s.twi.phase = .held → statusOf s.twi ∈ ([0x18, 0x20, 0x28, 0x30] : List Byte) →
      exec i s = .next (after (.tx s.twi.twdr))) ∧
    (s.twi.phase = .held → statusOf s.twi ∈ ([0x40, 0x50] : List Byte) →
      exec i s = .next (after (if v.getLsbD 6 then .rxAck else .rxNack))) ∧
    (s.twi.phase = .held → statusOf s.twi = 0x38 →
      exec i s = .next { s with
        twi := { s.twi with
          ea := v.getLsbD 6, sta := false, sto := false, en := true, ie := false, int := false
          phase := .idle, owns := false, tws := 0b11111 }
        gpio := { s.gpio with stale := 0x00 } }) ∧
    (s.twi.phase = .off ∨ s.twi.phase = .idle ∨
      (s.twi.phase = .held ∧ statusOf s.twi ∈ ([0x48, 0x58, 0x00] : List Byte)) →
      exec i s = .refused .twiIllegalCommand) ∧
    (s.twi.phase = .stopping ∨ (∃ op, s.twi.phase = .pending op) → exec i s = .refused .twiBusy)

/-- R191, R198: the admission table, cell by cell, where bus ownership agrees with the state of the unit (it does in
every state a run reaches): in every admitted state ownership launches the START of the table. -/
def Obligations.AdmissionTable : Prop :=
  ∀ (s : State) (st sp ss c : Byte) (ci : Instr),
    st &&& 0xB5 = 0xA4 → sp &&& 0xB5 = 0x94 → ss &&& 0xB5 = 0xB4 →
    (ci = .wrTwcrContAck c ∧ c &&& 0xF5 = 0xC4) ∨ (ci = .wrTwcrContNack c ∧ c &&& 0xF5 = 0x84) →
    OwnsInv s.twi →
    (s.twi.phase = .off ∨ s.twi.phase = .idle →
      Launches (.wrTwcrStart st) s .start ∧ RefusedBy (.wrTwcrStop sp) s .twiIllegalCommand ∧
      RefusedBy (.wrTwcrStopStart ss) s .twiIllegalCommand ∧ RefusedBy ci s .twiIllegalCommand) ∧
    (Held s.twi 0x08 ∨ Held s.twi 0x10 →
      RefusedBy (.wrTwcrStart st) s .twiIllegalCommand ∧ RefusedBy (.wrTwcrStop sp) s .twiIllegalCommand ∧
      RefusedBy (.wrTwcrStopStart ss) s .twiIllegalCommand ∧ Launches ci s (.sla s.twi.twdr)) ∧
    (Held s.twi 0x18 ∨ Held s.twi 0x20 ∨ Held s.twi 0x28 ∨ Held s.twi 0x30 →
      Launches (.wrTwcrStart st) s .repStart ∧ Enters (.wrTwcrStop sp) s .stopping ∧
      Launches (.wrTwcrStopStart ss) s .stopStart ∧ Launches ci s (.tx s.twi.twdr)) ∧
    (Held s.twi 0x38 →
      Launches (.wrTwcrStart st) s .start ∧ RefusedBy (.wrTwcrStop sp) s .twiIllegalCommand ∧
      RefusedBy (.wrTwcrStopStart ss) s .twiIllegalCommand ∧ Enters ci s .idle) ∧
    (Held s.twi 0x40 ∨ Held s.twi 0x50 →
      RefusedBy (.wrTwcrStart st) s .twiIllegalCommand ∧ RefusedBy (.wrTwcrStop sp) s .twiIllegalCommand ∧
      RefusedBy (.wrTwcrStopStart ss) s .twiIllegalCommand ∧
      Launches ci s (if c.getLsbD 6 then .rxAck else .rxNack)) ∧
    (Held s.twi 0x48 ∨ Held s.twi 0x58 →
      Launches (.wrTwcrStart st) s .repStart ∧ Enters (.wrTwcrStop sp) s .stopping ∧
      Launches (.wrTwcrStopStart ss) s .stopStart ∧ RefusedBy ci s .twiIllegalCommand) ∧
    (Held s.twi 0x00 →
      RefusedBy (.wrTwcrStart st) s .twiIllegalCommand ∧ Enters (.wrTwcrStop sp) s .idle ∧
      RefusedBy (.wrTwcrStopStart ss) s .twiIllegalCommand ∧ RefusedBy ci s .twiIllegalCommand) ∧
    ((∃ op, s.twi.phase = .pending op) ∨ s.twi.phase = .stopping →
      RefusedBy (.wrTwcrStart st) s .twiBusy ∧ RefusedBy (.wrTwcrStop sp) s .twiBusy ∧
      RefusedBy (.wrTwcrStopStart ss) s .twiBusy ∧ RefusedBy ci s .twiBusy)

/-! ## Completion -/

/-- R210, R214, R215 (with the table of R211): a pending operation completes with the outcome that the free index
chooses (log 4), one of its row, TWDR as R214 says with the free byte (log 4), and ownership as R215 says; nothing else
changes. -/
def Obligations.BusCompletion : Prop :=
  ∀ (s : State) (op : TwiOp), s.twi.phase = .pending op →
    let st := chosenStatus op (Config.freeIndex s.draws)
    let b := Config.freeByte s.draws
    st ∈ (match op with
      | .start => [0x08, 0x38, 0x00]
      | .repStart => [0x10, 0x38, 0x00]
      | .stopStart => [0x08, 0x38, 0x00]
      | .sla a => if a.getLsbD 0 then [0x40, 0x48, 0x38, 0x00] else [0x18, 0x20, 0x38, 0x00]
      | .tx _ => [0x28, 0x30, 0x38, 0x00]
      | .rxAck => [0x50, 0x38, 0x00]
      | .rxNack => [0x58, 0x38, 0x00] : List Byte) ∧
    busStep s = { s with
      twi := { s.twi with
        tws := (st >>> 3).setWidth 5, int := true, phase := .held
        sto := if op = .stopStart then false else s.twi.sto
        twdr := if ((op = .rxAck ∨ op = .rxNack) ∧ (st = 0x50 ∨ st = 0x58)) ∨ st = 0x38 ∨ st = 0x00 then b
          else s.twi.twdr
        owns := if st = 0x38 then false else if st = 0x00 then s.twi.owns else true }
      draws := s.draws + 1 }

/-- R211: `STATUS_OUTCOMES(op)` is the table, and every outcome of it can be chosen, none is shut out. -/
def Obligations.EveryStatusOutcomeIsPossible : Prop :=
  ∀ (op : TwiOp) (st : Byte),
    (∃ n, chosenStatus op n = st) ↔
    st ∈ (match op with
      | .start => [0x08, 0x38, 0x00]
      | .repStart => [0x10, 0x38, 0x00]
      | .stopStart => [0x08, 0x38, 0x00]
      | .sla a => if a.getLsbD 0 then [0x40, 0x48, 0x38, 0x00] else [0x18, 0x20, 0x38, 0x00]
      | .tx _ => [0x28, 0x30, 0x38, 0x00]
      | .rxAck => [0x50, 0x38, 0x00]
      | .rxNack => [0x58, 0x38, 0x00] : List Byte)

/-- R212: in phase Stopping the BUS step clears TWSTO and ownership and goes to Idle; and of the transactions, on an
enabled unit that meets the invariant, only DISABLE clears TWSTO. -/
def Obligations.StopExecution : Prop :=
  (∀ s : State, s.twi.phase = .stopping →
    busStep s = { s with twi := { s.twi with sto := false, owns := false, phase := .idle } }) ∧
  (∀ (i : Instr) (s t : State), TwiInv s.twi → s.twi.en = true → s.twi.sto = true → exec i s = .next t →
    t.twi.sto = false → ∃ v, i = .wrTwcrDisable v)

/-! ## Invariants -/

/-- R30 (and log 12): every step keeps the invariants of the TWI unit. -/
def Obligations.TwiInvariantIsKept : Prop :=
  ∀ s t : State, TwiInv s.twi → step s = .next t → TwiInv t.twi

/-- R25, R198, R213, R215: every step keeps bus ownership in agreement with the state of the unit. -/
def Obligations.OwnershipInvariantIsKept : Prop :=
  ∀ s t : State, OwnsInv s.twi → step s = .next t → OwnsInv t.twi

/-- R32, R33, R36, R38: every step keeps the timer's control registers at admitted values. -/
def Obligations.TimerModeInvariantIsKept : Prop :=
  ∀ s t : State, TimerInv s.tmr → step s = .next t → TimerInv t.tmr

/-- R300: the invariants hold right after reset. -/
def Obligations.InvariantsHoldAtReset : Prop :=
  TwiInv State.reset.twi ∧ OwnsInv State.reset.twi ∧ TimerInv State.reset.tmr

/-! ## Frames and whole-machine rules -/

/-- R62, R110, R111: a transaction changes the unit it addresses only (with the stale mask), the host's byte only where
it reads, and neither the host's position nor a mark nor the turn; a draw is used by a PINB read and by a TWDR read
while an operation is pending, by no other transaction. -/
def Obligations.TransactionsChangeOnlyTheirUnit : Prop :=
  ∀ (i : Instr) (s t : State), exec i s = .next t →
    (unitOf i ≠ .twi → t.twi = s.twi) ∧
    (unitOf i ≠ .tmr → t.tmr = s.tmr) ∧
    (unitOf i ≠ .gpio → t.gpio = { s.gpio with stale := 0x00 }) ∧
    (isRead i = false → t.thread = s.thread) ∧
    t.thread = { s.thread with rdata := t.thread.rdata } ∧
    t.faulted = s.faulted ∧ t.refused = s.refused ∧ t.turn = s.turn ∧
    (i ≠ .rdPinb → (i ≠ .rdTwdr ∨ ∀ op, s.twi.phase ≠ .pending op) → t.draws = s.draws)

/-- R68: every read completes, in every state, changes no register and no flag, and clears the stale mask. -/
def Obligations.ReadsChangeNoRegister : Prop :=
  ∀ (i : Instr) (s : State), isRead i = true →
    ∃ t, exec i s = .next t ∧ t.twi = s.twi ∧ t.tmr = s.tmr ∧ t.gpio = { s.gpio with stale := 0x00 }

/-- R42: which transactions set and clear each flag. TWINT, OCF0A, OCF0B and TOV0 are set by none. TWSTO is cleared by
TWCR writes only, and on an enabled unit that meets the invariant by DISABLE only. -/
def Obligations.FlagsChangeOnlyByTheirWriters : Prop :=
  ∀ (i : Instr) (s t : State), exec i s = .next t →
    (t.twi.int = true → s.twi.int = true) ∧
    (s.twi.int = true → t.twi.int = false →
      (∃ v, i = .wrTwcrDisable v) ∨ ∃ v : Byte, v.getLsbD 7 = true ∧ encode i = busWord true 0x00BC v) ∧
    (s.twi.sto = false → t.twi.sto = true → ∃ v, i = .wrTwcrStop v ∨ i = .wrTwcrStopStart v) ∧
    (s.twi.sto = true → t.twi.sto = false → ∃ v : Byte, encode i = busWord true 0x00BC v) ∧
    (TwiInv s.twi → s.twi.en = true → s.twi.sto = true → t.twi.sto = false → ∃ v, i = .wrTwcrDisable v) ∧
    (s.twi.wc = false → t.twi.wc = true → s.twi.int = false ∧ ∃ v, i = .wrTwdr v) ∧
    (s.twi.wc = true → t.twi.wc = false →
      (s.twi.int = true ∧ ∃ v, i = .wrTwdr v) ∨ ∃ v, i = .wrTwcrDisable v) ∧
    (t.tmr.ocfa = true → s.tmr.ocfa = true) ∧
    (t.tmr.ocfb = true → s.tmr.ocfb = true) ∧
    (t.tmr.tov = true → s.tmr.tov = true) ∧
    (s.tmr.ocfa = true → t.tmr.ocfa = false → ∃ v : Byte, i = .wrTifr0 v ∧ v.getLsbD 1 = true) ∧
    (s.tmr.ocfb = true → t.tmr.ocfb = false → ∃ v : Byte, i = .wrTifr0 v ∧ v.getLsbD 2 = true) ∧
    (s.tmr.tov = true → t.tmr.tov = false → ∃ v : Byte, i = .wrTifr0 v ∧ v.getLsbD 0 = true)

/-- R3, R187 to R197: what a transaction does to the TWI unit, and whether it is refused, depends on the TWI unit
alone. -/
def Obligations.TwiUnitIsIsolated : Prop :=
  ∀ (i : Instr) (s₁ s₂ : State), s₁.twi = s₂.twi →
    (∀ t₁, exec i s₁ = .next t₁ → ∃ t₂, exec i s₂ = .next t₂ ∧ t₂.twi = t₁.twi) ∧
    (∀ r, exec i s₁ = .refused r → exec i s₂ = .refused r) ∧
    (∀ r, exec i s₁ ≠ .fault r)

/-! ## Host statements -/

/-- R115 to R117: a bit operation reads the register, and the host's next word writes the changed byte back, also after
a BUS or TCLK step in between; a bit index above 7 is refused before any word. -/
def Obligations.BitOperationsAreReadThenWrite : Prop :=
  ∀ (s : State) (vars : List (Local × Nat)) (buf : List Byte) (rest : Prog) (k : List Todo) (dst : Option Dest)
    (callers : List Activation) (a : Addr) (b : Nat) (st : Stmt) (f : Byte → Byte),
    (st = .setb a b ∧ f = fun x => x ||| ((1 : Byte) <<< b)) ∨ (st = .clrb a b ∧ f = fun x => x &&& ~~~((1 : Byte) <<< b)) ∨
      (st = .tglb a b ∧ f = fun x => x ^^^ ((1 : Byte) <<< b)) →
    s.thread.acts = ⟨vars, buf, .seq (.cons st rest) :: k, dst⟩ :: callers →
    (b ≤ 7 → fetch s = some (busWord false a 0x00) ∧
      fetch (afterBus s) = some (busWord true a (f s.thread.rdata)) ∧
      fetch (busStep (afterBus s)) = some (busWord true a (f s.thread.rdata)) ∧
      fetch (tclkStep (afterBus s)) = some (busWord true a (f s.thread.rdata))) ∧
    (7 < b → fetch s = none ∧ hostStep s = .refused .badBitIndex)

/-- R118: `TSTB` reads the register and binds 0 or 1, never the masked byte, and no other local, and the host goes on with
whatever follows; a bit index above 7 is refused. -/
def Obligations.TestBitBindsZeroOrOne : Prop :=
  ∀ (s : State) (vars : List (Local × Nat)) (buf : List Byte) (rest : Prog) (k : List Todo)
    (dst : Option Dest) (callers : List Activation) (a : Addr) (b x : Nat),
    s.thread.acts = ⟨vars, buf, .seq (.cons (.tstb a b x) rest) :: k, dst⟩ :: callers →
    (b ≤ 7 → fetch s = some (busWord false a 0x00) ∧
      ∃ bound, afterBus s = continueWith s (⟨bound, buf, .seq rest :: k, dst⟩ :: callers) ∧
        lookup bound x = some (if s.thread.rdata.getLsbD b then 1 else 0) ∧
        ∀ y, y ≠ x → lookup bound y = lookup vars y) ∧
    (7 < b → hostStep s = .refused .badBitIndex)

/-- R100, R115 to R118, R121 to R127, R242 (logs 8, 9): a host step that issues no word is refused as a bad bit index
exactly for a bit operation with an index above 7, as too wide an address exactly for a call of addressWrite or
addressRead with an argument that is no 7-bit address, and has a next state in every other case, whatever its locals,
its operands and the number of its arguments; and an assignment binds its local to the value, reduced to its width. -/
def Obligations.HostStatementsRun : Prop :=
  ∀ s : State,
    (BadIndexNext s → fetch s = none ∧ hostStep s = .refused .badBitIndex) ∧
    (WideAddressNext s → fetch s = none ∧ hostStep s = .refused .addrTooWide) ∧
    (fetch s = none → ¬ BadIndexNext s → ¬ WideAddressNext s → ∃ t, hostStep s = .next t) ∧
    (∀ (act : Activation) (w : Width) (x : Local) (e : Expr) (rest : Prog) (k : List Todo) (callers : List Activation),
      s.thread.acts = act :: callers → act.todo = .seq (.cons (.assign w x e) rest) :: k →
      hostStep s = .next (continueWith s ({ act with
        vars := bindLocal act.vars x ((evalExpr s.draws act.vars e % (match w with | .byte => 256 | .count => 65536)).toNat)
        todo := .seq rest :: k } :: callers)))

/-- R43, R118, R121, R126, R303: what the last statement of the host's sequence binds is in the state in which it has
ended: the byte of a read, the bit of a TSTB, the value of a LET, the result of a call, also a byte list; a RET ends it
with its locals as they are (log 10); and every later step leaves them. `k` is what of an enclosing IF or LOOP is left,
which is nothing. -/
def Obligations.ResultsStayWhenTheSequenceEnds : Prop :=
  ∀ (s : State) (vars : List (Local × Nat)) (buf : List Byte) (dst : Option Dest) (k : List Todo) (x : Local),
    settleTodo k = [] →
    (∀ a, s.thread.acts = [⟨vars, buf, .seq (.cons (.rd a x) .done) :: k, dst⟩] →
      ∃ bound, EndedWith (afterBus s) bound buf ∧ lookup bound x = some s.thread.rdata.toNat ∧
        ∀ y, y ≠ x → lookup bound y = lookup vars y) ∧
    (∀ a b, s.thread.acts = [⟨vars, buf, .seq (.cons (.tstb a b x) .done) :: k, dst⟩] →
      ∃ bound, EndedWith (afterBus s) bound buf ∧
        lookup bound x = some (if s.thread.rdata.getLsbD b then 1 else 0) ∧
        ∀ y, y ≠ x → lookup bound y = lookup vars y) ∧
    (∀ w e, s.thread.acts = [⟨vars, buf, .seq (.cons (.assign w x e) .done) :: k, dst⟩] →
      ∃ t bound, hostStep s = .next t ∧ EndedWith t bound buf ∧
        lookup bound x = some ((evalExpr s.draws vars e % (match w with | .byte => 256 | .count => 65536)).toNat) ∧
        ∀ y, y ≠ x → lookup bound y = lookup vars y) ∧
    (∀ r rest l, s.thread.acts = [⟨vars, buf, .seq (.cons (.ret r) rest) :: l, dst⟩] →
      ∃ t, hostStep s = .next t ∧ EndedWith t vars buf) ∧
    (∀ inner list e rest l,
      s.thread.acts = [⟨inner, list, .seq (.cons (.ret (.expr e)) rest) :: l, some (.loc x)⟩, ⟨vars, buf, k, dst⟩] →
      ∃ t bound, hostStep s = .next t ∧ EndedWith t bound buf ∧
        lookup bound x = some ((evalExpr s.draws inner e % 256).toNat) ∧
        ∀ y, y ≠ x → lookup bound y = lookup vars y) ∧
    (∀ inner list rest l,
      s.thread.acts = [⟨inner, list, .seq (.cons (.ret .buf) rest) :: l, some .buf⟩, ⟨vars, buf, k, dst⟩] →
      ∃ t, hostStep s = .next t ∧ EndedWith t vars list) ∧
    (∀ t, EndedWith s vars buf → step s = .next t → EndedWith t vars buf)

/-- R119: a poll reads until the masked byte is the value: else the host stays at the poll. -/
def Obligations.PollSpinsUntilTheValue : Prop :=
  ∀ (s : State) (act : Activation) (rest : Prog) (k : List Todo) (callers : List Activation) (a : Addr) (m v : Byte),
    s.thread.acts = act :: callers → act.todo = .seq (.cons (.poll a m v) rest) :: k →
    fetch s = some (busWord false a 0x00) ∧
    (s.thread.rdata &&& m ≠ v → afterBus s = s) ∧
    (s.thread.rdata &&& m = v → afterBus s = continueWith s ({ act with todo := .seq rest :: k } :: callers))

/-- R120, R280: a status check passes on the masked byte alone; on a mismatch the host sets the fault site, emits the
site's message with the value, and enters the fault state, whose first word reads DDRB. That this takes four steps of
the host, one each for the call, the site, the event and the call of the fault state, is the model's (logs 5, 10, 18). -/
def Obligations.MismatchTakesTheFaultPath : Prop :=
  ∀ (s : State) (act : Activation) (rest : Prog) (k : List Todo) (callers : List Activation) (a : Addr) (m v : Byte)
    (site : Site) (e : Option Expr),
    s.thread.acts = act :: callers → act.todo = .seq (.cons (.expect a m v site e) rest) :: k →
    fetch s = some (busWord false a 0x00) ∧
    (s.thread.rdata &&& m = v → afterBus s = continueWith s ({ act with todo := .seq rest :: k } :: callers)) ∧
    (s.thread.rdata &&& m ≠ v →
      ∃ s₁ s₂ s₃ s₄ : State,
        hostStep (afterBus s) = .next s₁ ∧ hostStep s₁ = .next s₂ ∧ hostStep s₂ = .next s₃ ∧ hostStep s₃ = .next s₄ ∧
        s₂.thread.faultSite = some site ∧
        s₃.thread.emitted = s.thread.emitted ++
          [(siteMessage Config.params site, e.map (fun d => BitVec.ofInt 8 (evalExpr s.draws act.vars d)))] ∧
        fetch s₄ = some (busWord false 0x0024 0x00) ∧
        inFaultState s₄.thread.acts = true ∧
        s₄.twi = s.twi)

/-- R247, R281: the fault state is terminal: once in it the host stays in it, the fault site and the events never
change again, and the host changes no TWI register. -/
def Obligations.FaultStateIsTerminal : Prop :=
  ∀ s t : State, inFaultState s.thread.acts = true → step s = .next t →
    inFaultState t.thread.acts = true ∧
    t.thread.faultSite = s.thread.faultSite ∧ t.thread.emitted = s.thread.emitted ∧
    (mover s = some .host → t.twi = s.twi)

/-- R242: an address argument above 0x7F is refused before any word; else the byte for the data register is
`(a << 1) | dir`. -/
def Obligations.AddressByte : Prop :=
  ∀ (s : State) (c : Activation) (callers : List Activation) (n dir : Nat) (p : ProcName),
    (p = .addressWrite ∧ dir = 0) ∨ (p = .addressRead ∧ dir = 1) →
    (0x7F < n → callProc s c callers p [.lit n] none = .refused .addrTooWide) ∧
    (n ≤ 0x7F → ∃ t u, callProc s c callers p [.lit n] none = .next t ∧ hostStep t = .next u ∧
      fetch u = some (busWord true 0x00BB (BitVec.ofNat 8 (2 * n + dir))))

/-- R231, R246: the constants at the default parameters, and that the parameters are admissible whatever the open ones
are. -/
def Obligations.ParameterConstants : Prop :=
  twbrVal Config.params = 12 ∧ t0Ocr Config.params = 249 ∧ paramsAdmissible Config.params = true
end

