-- ==== Sys2Proof/Laws/Decode.lean ====
section
/-! SUPPORT. The fields of a transaction word (R80), and that every row of the opcode map tells itself from every
other (R82). -/

namespace Sys2Proof

@[simp] theorem writeField_busWord (w : Bool) (a : Addr) (d : Byte) : writeField (busWord w a d) = w := by
  simp only [writeField, busWord, BitVec.getLsbD_append]
  simp

@[simp] theorem addrField_busWord (w : Bool) (a : Addr) (d : Byte) : addrField (busWord w a d) = a := by
  ext i hi
  simp only [addrField, busWord, BitVec.getElem_extractLsb', BitVec.getLsbD_append]
  simp [hi, BitVec.getLsbD_eq_getElem]

@[simp] theorem dataField_busWord (w : Bool) (a : Addr) (d : Byte) : dataField (busWord w a d) = d := by
  ext i hi
  simp only [dataField, busWord, BitVec.getElem_extractLsb', BitVec.getLsbD_append]
  simp [hi, BitVec.getLsbD_eq_getElem]

/-- A word is its three fields (R80). -/
theorem busWord_fields (w : BusWord) : busWord (writeField w) (addrField w) (dataField w) = w := by
  apply BitVec.eq_of_getLsbD_eq
  intro i hi
  simp only [busWord, writeField, addrField, dataField, BitVec.getLsbD_append, BitVec.getLsbD_extractLsb']
  by_cases h8 : i < 8
  · simp [h8]
  · by_cases h24 : i - 8 < 16
    · have : 8 + (i - 8) = i := by omega
      simp [h8, h24, this]
    · have : i = 24 := by omega
      subst this
      simp

/-- Two different rows differ in a bit that both of them fix (R82). -/
theorem rows_pairwise_disjoint :
    rows.Pairwise (fun r q => (r.mask &&& q.mask) &&& (r.value ^^^ q.value) ≠ 0) := by decide

theorem rows_length : rows.length = 35 := rfl

end Sys2Proof
end

