-- ==== Sys2Proof/Laws/State.lean ====
section
/-! SUPPORT. The small lemmas of the state's operations: one per field per update, true by definition, so that no
later proof unfolds a record update. -/

namespace Sys2Proof.Machine

/-! ## setTwi -/

@[simp] theorem setTwi_twi (s : State) (t : Twi) : (setTwi s t).twi = t := rfl
@[simp] theorem setTwi_tmr (s : State) (t : Twi) : (setTwi s t).tmr = s.tmr := rfl
@[simp] theorem setTwi_gpio (s : State) (t : Twi) : (setTwi s t).gpio = s.gpio := rfl
@[simp] theorem setTwi_thread (s : State) (t : Twi) : (setTwi s t).thread = s.thread := rfl
@[simp] theorem setTwi_faulted (s : State) (t : Twi) : (setTwi s t).faulted = s.faulted := rfl
@[simp] theorem setTwi_refused (s : State) (t : Twi) : (setTwi s t).refused = s.refused := rfl
@[simp] theorem setTwi_draws (s : State) (t : Twi) : (setTwi s t).draws = s.draws := rfl
@[simp] theorem setTwi_turn (s : State) (t : Twi) : (setTwi s t).turn = s.turn := rfl

/-! ## setTmr -/

@[simp] theorem setTmr_twi (s : State) (t : Tmr) : (setTmr s t).twi = s.twi := rfl
@[simp] theorem setTmr_tmr (s : State) (t : Tmr) : (setTmr s t).tmr = t := rfl
@[simp] theorem setTmr_gpio (s : State) (t : Tmr) : (setTmr s t).gpio = s.gpio := rfl
@[simp] theorem setTmr_thread (s : State) (t : Tmr) : (setTmr s t).thread = s.thread := rfl
@[simp] theorem setTmr_faulted (s : State) (t : Tmr) : (setTmr s t).faulted = s.faulted := rfl
@[simp] theorem setTmr_refused (s : State) (t : Tmr) : (setTmr s t).refused = s.refused := rfl
@[simp] theorem setTmr_draws (s : State) (t : Tmr) : (setTmr s t).draws = s.draws := rfl
@[simp] theorem setTmr_turn (s : State) (t : Tmr) : (setTmr s t).turn = s.turn := rfl

/-! ## setGpio -/

@[simp] theorem setGpio_twi (s : State) (g : Gpio) : (setGpio s g).twi = s.twi := rfl
@[simp] theorem setGpio_tmr (s : State) (g : Gpio) : (setGpio s g).tmr = s.tmr := rfl
@[simp] theorem setGpio_gpio (s : State) (g : Gpio) : (setGpio s g).gpio = g := rfl
@[simp] theorem setGpio_thread (s : State) (g : Gpio) : (setGpio s g).thread = s.thread := rfl
@[simp] theorem setGpio_faulted (s : State) (g : Gpio) : (setGpio s g).faulted = s.faulted := rfl
@[simp] theorem setGpio_refused (s : State) (g : Gpio) : (setGpio s g).refused = s.refused := rfl
@[simp] theorem setGpio_draws (s : State) (g : Gpio) : (setGpio s g).draws = s.draws := rfl
@[simp] theorem setGpio_turn (s : State) (g : Gpio) : (setGpio s g).turn = s.turn := rfl

/-! ## setThread -/

@[simp] theorem setThread_twi (s : State) (h : HostThread) : (setThread s h).twi = s.twi := rfl
@[simp] theorem setThread_tmr (s : State) (h : HostThread) : (setThread s h).tmr = s.tmr := rfl
@[simp] theorem setThread_gpio (s : State) (h : HostThread) : (setThread s h).gpio = s.gpio := rfl
@[simp] theorem setThread_thread (s : State) (h : HostThread) : (setThread s h).thread = h := rfl
@[simp] theorem setThread_faulted (s : State) (h : HostThread) : (setThread s h).faulted = s.faulted := rfl
@[simp] theorem setThread_refused (s : State) (h : HostThread) : (setThread s h).refused = s.refused := rfl
@[simp] theorem setThread_draws (s : State) (h : HostThread) : (setThread s h).draws = s.draws := rfl
@[simp] theorem setThread_turn (s : State) (h : HostThread) : (setThread s h).turn = s.turn := rfl

/-! ## setActs -/

@[simp] theorem setActs_twi (s : State) (l : List Activation) : (setActs s l).twi = s.twi := rfl
@[simp] theorem setActs_tmr (s : State) (l : List Activation) : (setActs s l).tmr = s.tmr := rfl
@[simp] theorem setActs_gpio (s : State) (l : List Activation) : (setActs s l).gpio = s.gpio := rfl
@[simp] theorem setActs_thread (s : State) (l : List Activation) : (setActs s l).thread = { s.thread with acts := l } := rfl
@[simp] theorem setActs_faulted (s : State) (l : List Activation) : (setActs s l).faulted = s.faulted := rfl
@[simp] theorem setActs_refused (s : State) (l : List Activation) : (setActs s l).refused = s.refused := rfl
@[simp] theorem setActs_draws (s : State) (l : List Activation) : (setActs s l).draws = s.draws := rfl
@[simp] theorem setActs_turn (s : State) (l : List Activation) : (setActs s l).turn = s.turn := rfl

/-! ## advanceDraws -/

@[simp] theorem advanceDraws_twi (s : State) : (advanceDraws s).twi = s.twi := rfl
@[simp] theorem advanceDraws_tmr (s : State) : (advanceDraws s).tmr = s.tmr := rfl
@[simp] theorem advanceDraws_gpio (s : State) : (advanceDraws s).gpio = s.gpio := rfl
@[simp] theorem advanceDraws_thread (s : State) : (advanceDraws s).thread = s.thread := rfl
@[simp] theorem advanceDraws_faulted (s : State) : (advanceDraws s).faulted = s.faulted := rfl
@[simp] theorem advanceDraws_refused (s : State) : (advanceDraws s).refused = s.refused := rfl
@[simp] theorem advanceDraws_draws (s : State) : (advanceDraws s).draws = s.draws + 1 := rfl
@[simp] theorem advanceDraws_turn (s : State) : (advanceDraws s).turn = s.turn := rfl

/-! ## readDone -/

@[simp] theorem readDone_twi (s : State) (v : Byte) : (readDone s v).twi = s.twi := rfl
@[simp] theorem readDone_tmr (s : State) (v : Byte) : (readDone s v).tmr = s.tmr := rfl
@[simp] theorem readDone_gpio (s : State) (v : Byte) : (readDone s v).gpio = { s.gpio with stale := 0x00 } := rfl
@[simp] theorem readDone_thread (s : State) (v : Byte) : (readDone s v).thread = { s.thread with rdata := v } := rfl
@[simp] theorem readDone_faulted (s : State) (v : Byte) : (readDone s v).faulted = s.faulted := rfl
@[simp] theorem readDone_refused (s : State) (v : Byte) : (readDone s v).refused = s.refused := rfl
@[simp] theorem readDone_draws (s : State) (v : Byte) : (readDone s v).draws = s.draws := rfl
@[simp] theorem readDone_turn (s : State) (v : Byte) : (readDone s v).turn = s.turn := rfl

/-! ## writeDone -/

@[simp] theorem writeDone_twi (s : State) : (writeDone s).twi = s.twi := rfl
@[simp] theorem writeDone_tmr (s : State) : (writeDone s).tmr = s.tmr := rfl
@[simp] theorem writeDone_gpio (s : State) : (writeDone s).gpio = { s.gpio with stale := 0x00 } := rfl
@[simp] theorem writeDone_thread (s : State) : (writeDone s).thread = s.thread := rfl
@[simp] theorem writeDone_faulted (s : State) : (writeDone s).faulted = s.faulted := rfl
@[simp] theorem writeDone_refused (s : State) : (writeDone s).refused = s.refused := rfl
@[simp] theorem writeDone_draws (s : State) : (writeDone s).draws = s.draws := rfl
@[simp] theorem writeDone_turn (s : State) : (writeDone s).turn = s.turn := rfl

/-! ## continueWith -/

@[simp] theorem continueWith_twi (s : State) (l : List Activation) : (continueWith s l).twi = s.twi := rfl
@[simp] theorem continueWith_tmr (s : State) (l : List Activation) : (continueWith s l).tmr = s.tmr := rfl
@[simp] theorem continueWith_gpio (s : State) (l : List Activation) : (continueWith s l).gpio = s.gpio := rfl
@[simp] theorem continueWith_thread (s : State) (l : List Activation) : (continueWith s l).thread = { s.thread with acts := settleActs l } := rfl
@[simp] theorem continueWith_faulted (s : State) (l : List Activation) : (continueWith s l).faulted = s.faulted := rfl
@[simp] theorem continueWith_refused (s : State) (l : List Activation) : (continueWith s l).refused = s.refused := rfl
@[simp] theorem continueWith_draws (s : State) (l : List Activation) : (continueWith s l).draws = s.draws := rfl
@[simp] theorem continueWith_turn (s : State) (l : List Activation) : (continueWith s l).turn = s.turn := rfl

/-! ## emitEvent -/

@[simp] theorem emitEvent_twi (s : State) (m : String) (v : Option Byte) : (emitEvent s m v).twi = s.twi := rfl
@[simp] theorem emitEvent_tmr (s : State) (m : String) (v : Option Byte) : (emitEvent s m v).tmr = s.tmr := rfl
@[simp] theorem emitEvent_gpio (s : State) (m : String) (v : Option Byte) : (emitEvent s m v).gpio = s.gpio := rfl
@[simp] theorem emitEvent_thread (s : State) (m : String) (v : Option Byte) : (emitEvent s m v).thread = { s.thread with emitted := s.thread.emitted ++ [(m, v)] } := rfl
@[simp] theorem emitEvent_faulted (s : State) (m : String) (v : Option Byte) : (emitEvent s m v).faulted = s.faulted := rfl
@[simp] theorem emitEvent_refused (s : State) (m : String) (v : Option Byte) : (emitEvent s m v).refused = s.refused := rfl
@[simp] theorem emitEvent_draws (s : State) (m : String) (v : Option Byte) : (emitEvent s m v).draws = s.draws := rfl
@[simp] theorem emitEvent_turn (s : State) (m : String) (v : Option Byte) : (emitEvent s m v).turn = s.turn := rfl

/-! ## passTurn -/

@[simp] theorem passTurn_twi (s : State) : (passTurn s).twi = s.twi := rfl
@[simp] theorem passTurn_tmr (s : State) : (passTurn s).tmr = s.tmr := rfl
@[simp] theorem passTurn_gpio (s : State) : (passTurn s).gpio = s.gpio := rfl
@[simp] theorem passTurn_thread (s : State) : (passTurn s).thread = s.thread := rfl
@[simp] theorem passTurn_faulted (s : State) : (passTurn s).faulted = s.faulted := rfl
@[simp] theorem passTurn_refused (s : State) : (passTurn s).refused = s.refused := rfl
@[simp] theorem passTurn_draws (s : State) : (passTurn s).draws = s.draws + 1 := rfl
@[simp] theorem passTurn_turn (s : State) : (passTurn s).turn = Config.freeTurn s.draws := rfl

/-! ## The host's activations -/

@[simp] theorem setActs_acts (s : State) (l : List Activation) : (setActs s l).thread.acts = l := rfl
@[simp] theorem setActs_faultSite (s : State) (l : List Activation) : (setActs s l).thread.faultSite = s.thread.faultSite := rfl
@[simp] theorem setActs_emitted (s : State) (l : List Activation) : (setActs s l).thread.emitted = s.thread.emitted := rfl
@[simp] theorem setActs_rdata (s : State) (l : List Activation) : (setActs s l).thread.rdata = s.thread.rdata := rfl

end Sys2Proof.Machine
end

