-- ==== Sys2Proof/Laws/Ops.lean ====
section
/-! SUPPORT. What the shared operations can do, once each: outcomes, checks, the decoder's answer to a word, the
refusals of a TWCR write, and the host's control steps. -/

namespace Sys2Proof.Machine

/-! ## Outcomes -/

@[simp] theorem mapNext_next (t : State) (f : State → State) : mapNext (.next t) f = .next (f t) := rfl
@[simp] theorem mapNext_fault (r : Fault) (f : State → State) : mapNext (.fault r) f = .fault r := rfl
@[simp] theorem mapNext_refused (r : Refusal) (f : State → State) : mapNext (.refused r) f = .refused r := rfl

/-- A changed outcome answers a next state only where the outcome did. -/
theorem mapNext_eq_next {o : Result} {f : State → State} {t : State} (h : mapNext o f = .next t) :
    ∃ u, o = .next u ∧ t = f u := by
  cases o with
  | next u => exact ⟨u, rfl, by simpa using h.symm⟩
  | fault r => cases h
  | refused r => cases h

@[simp] theorem andThen_next (t : State) (f : State → Result) : andThen (.next t) f = f t := rfl

/-- A checked outcome answers a next state only where the check holds. -/
theorem require_eq_next {ok : Bool} {why : Refusal} {o : Result} {t : State} (h : require ok why o = .next t) :
    ok = true ∧ o = .next t := by
  cases ok with
  | true => exact ⟨rfl, h⟩
  | false => cases h

@[simp] theorem require_true (why : Refusal) (o : Result) : require true why o = o := rfl
@[simp] theorem require_false (why : Refusal) (o : Result) : require false why o = .refused why := rfl

/-- No check ends in a fault. -/
theorem require_ne_fault {ok : Bool} {why : Refusal} {o : Result} {r : Fault} (h : o ≠ .fault r) :
    require ok why o ≠ .fault r := by
  cases ok with
  | true => exact h
  | false => intro hf; cases hf

@[simp] theorem endState_next (s t : State) : endState s (.next t) = t := rfl
@[simp] theorem endState_unmapped (s : State) : endState s (.fault .unmapped) = { s with faulted := true } := rfl
@[simp] theorem endState_refused (s : State) (r : Refusal) : endState s (.refused r) = { s with refused := true } := rfl

/-! ## The block's answer to a word (R110, R111) -/

theorem transact_of_ok {w : BusWord} {i : Instr} (h : decode w = .ok i) (s : State) : transact w s = exec i s := by
  simp [transact, h]

theorem transact_of_unmapped {w : BusWord} (h : decode w = .error .unmapped) (s : State) :
    transact w s = .fault .unmapped := by
  simp [transact, h]

/-- A transaction answers a next state only where its word is an instruction that does. -/
theorem transact_eq_next {w : BusWord} {s t : State} (h : transact w s = .next t) :
    ∃ i, decode w = .ok i ∧ exec i s = .next t := by
  unfold transact at h
  split at h
  · exact ⟨_, by assumption, h⟩
  · cases h
  · cases h
  · cases h

/-! ## TWCR writes (R187) -/

/-- Everything a TWCR write can do when it goes on: its byte is of the class, the unit is free or the command is
DISABLE, the class's rule has an entry, and the unit becomes what that entry says. -/
theorem twcrWrite_eq_next {cls : TwcrClass} {v : Byte} {f : Twi → Option Twi} {s t : State}
    (h : twcrWrite cls v f s = .next t) :
    twcrClass v = cls ∧ (isBusy s.twi = false ∨ cls = .disable) ∧
      ∃ u, f s.twi = some u ∧ t = writeDone (setTwi s u) := by
  obtain ⟨-, h⟩ := require_eq_next h
  obtain ⟨hc, h⟩ := require_eq_next h
  obtain ⟨hb, h⟩ := require_eq_next h
  refine ⟨by simpa using hc, by simpa using hb, ?_⟩
  cases hf : f s.twi with
  | none => simp [hf] at h
  | some u => exact ⟨u, rfl, by simpa [hf, twiWrite] using h.symm⟩

/-- A TWCR write goes on where nothing refuses it. -/
theorem twcrWrite_next {cls : TwcrClass} {v : Byte} {f : Twi → Option Twi} {s : State} {u : Twi}
    (hc : twcrClass v = cls) (hi : cls ≠ .interruptEnable) (hb : isBusy s.twi = false ∨ cls = .disable)
    (hf : f s.twi = some u) : twcrWrite cls v f s = .next (writeDone (setTwi s u)) := by
  have h1 : (twcrClass v != .interruptEnable) = true := by simpa [hc] using hi
  have h2 : (twcrClass v == cls) = true := by simpa using hc
  have h3 : (!isBusy s.twi || cls == .disable) = true := by simpa using hb
  simp [twcrWrite, h1, h2, h3, hf, twiWrite]

/-- Every command of the admission table but DISABLE and CONFIG needs a unit that is not busy (R191). -/
theorem not_busy_of_held {t : Twi} (h : t.phase = .held) : isBusy t = false := by
  simp [isBusy, isPending, h]

theorem heldWith_iff (t : Twi) (l : List Byte) : heldWith t l = true ↔ t.phase = .held ∧ statusOf t ∈ l := by
  simp [heldWith]

/-- The phases in which an operation or a STOP is in progress. -/
theorem isBusy_iff (t : Twi) : isBusy t = true ↔ (∃ op, t.phase = .pending op) ∨ t.phase = .stopping := by
  cases h : t.phase <;> simp [isBusy, isPending, h]

/-! ## BUS and TCLK -/

/-- Everything a BUS step can do (R210, R212). -/
theorem busStep_cases (s : State) :
    (∃ op, s.twi.phase = .pending op ∧
      busStep s = advanceDraws (setTwi s (complete op (chosenStatus op (drawnIndex s)) (drawnByte s) s.twi))) ∨
    (s.twi.phase = .stopping ∧ busStep s = setTwi s (stopExecuted s.twi)) ∨
    (isBusy s.twi = false ∧ busStep s = s) := by
  unfold busStep
  split
  · exact .inr (.inl ⟨by assumption, rfl⟩)
  · exact .inl ⟨_, by assumption, rfl⟩
  · exact .inr (.inr ⟨by simp [isBusy, isPending, *], rfl⟩)
  · exact .inr (.inr ⟨by simp [isBusy, isPending, *], rfl⟩)
  · exact .inr (.inr ⟨by simp [isBusy, isPending, *], rfl⟩)

@[simp] theorem busStep_tmr (s : State) : (busStep s).tmr = s.tmr := by
  obtain ⟨_, _, h⟩ | ⟨_, h⟩ | ⟨_, h⟩ := busStep_cases s <;> simp [h]
@[simp] theorem busStep_gpio (s : State) : (busStep s).gpio = s.gpio := by
  obtain ⟨_, _, h⟩ | ⟨_, h⟩ | ⟨_, h⟩ := busStep_cases s <;> simp [h]
@[simp] theorem busStep_thread (s : State) : (busStep s).thread = s.thread := by
  obtain ⟨_, _, h⟩ | ⟨_, h⟩ | ⟨_, h⟩ := busStep_cases s <;> simp [h]
@[simp] theorem busStep_faulted (s : State) : (busStep s).faulted = s.faulted := by
  obtain ⟨_, _, h⟩ | ⟨_, h⟩ | ⟨_, h⟩ := busStep_cases s <;> simp [h]
@[simp] theorem busStep_refused (s : State) : (busStep s).refused = s.refused := by
  obtain ⟨_, _, h⟩ | ⟨_, h⟩ | ⟨_, h⟩ := busStep_cases s <;> simp [h]

@[simp] theorem tclkStep_twi (s : State) : (tclkStep s).twi = s.twi := rfl
@[simp] theorem tclkStep_gpio (s : State) : (tclkStep s).gpio = s.gpio := rfl
@[simp] theorem tclkStep_thread (s : State) : (tclkStep s).thread = s.thread := rfl
@[simp] theorem tclkStep_tmr (s : State) : (tclkStep s).tmr = tick (drawnBit s) s.tmr := rfl
@[simp] theorem tclkStep_faulted (s : State) : (tclkStep s).faulted = s.faulted := rfl
@[simp] theorem tclkStep_refused (s : State) : (tclkStep s).refused = s.refused := rfl

@[simp] theorem tick_tccr0a (d : Bool) (t : Tmr) : (tick d t).tccr0a = t.tccr0a := rfl
@[simp] theorem tick_tccr0b (d : Bool) (t : Tmr) : (tick d t).tccr0b = t.tccr0b := rfl
@[simp] theorem tick_ocra (d : Bool) (t : Tmr) : (tick d t).ocra = t.ocra := rfl
@[simp] theorem tick_ocrb (d : Bool) (t : Tmr) : (tick d t).ocrb = t.ocrb := rfl
@[simp] theorem tick_timsk (d : Bool) (t : Tmr) : (tick d t).timsk = t.timsk := rfl
@[simp] theorem tick_cmBlock (d : Bool) (t : Tmr) : (tick d t).cmBlock = false := rfl
@[simp] theorem tick_tcnt (d : Bool) (t : Tmr) : (tick d t).tcnt = tickCount d t := rfl
@[simp] theorem ctcMode_tick (d : Bool) (t : Tmr) : ctcMode (tick d t) = ctcMode t := rfl

/-! ## Expressions -/

@[simp] theorem localValue_bound {n : Nat} {vars : List (Local × Nat)} {x : Local} {v : Nat}
    (h : lookup vars x = some v) : localValue n vars x = v := by
  simp [localValue, h]

/-- On natural numbers, where its condition holds, an operator has the result the spec states (R9, R127). -/
theorem statedResult_eq {op : OpenOp} {args : List Int} {ok : Bool} {v : Int} (h : ∀ a ∈ args, 0 ≤ a)
    (hok : ok = true) : statedResult op args ok v = v := by
  have : args.all (fun a => decide (0 ≤ a)) = true := by simpa using h
  simp [statedResult, this, hok]

/-- The bitwise operators on natural numbers of any width (R127). -/
theorem bitwise_nat (op : OpenOp) (f : Nat → Nat → Nat) (a b : Nat) : bitwise op f a b = f a b := by
  simp [bitwise, statedResult]

theorem shiftLeft_nat (a : Int) (k : Nat) : shiftLeft a k = a * 2 ^ k := by
  simp [shiftLeft]

/-! ## The position of the host -/

theorem lookup_bindLocal (vars : List (Local × Nat)) (x : Local) (n : Nat) :
    lookup (bindLocal vars x n) x = some n := by
  simp [bindLocal, lookup]

/-- A procedure with something left to run goes on (R122). -/
theorem settleActs_running {a : Activation} {t : Todo} {l : List Todo} (h : settleTodo a.todo = t :: l)
    (callers : List Activation) : settleActs (a :: callers) = { a with todo := t :: l } :: callers := by
  simp [settleActs, h]

/-- A procedure that has ended goes back to its caller (R126). -/
theorem settleActs_ended {a : Activation} (h : settleTodo a.todo = []) (c : Activation) (callers : List Activation) :
    settleActs (a :: c :: callers) = settleActs (c :: callers) := by
  simp [settleActs, h]

/-- The outermost sequence keeps its locals and its byte list when it has ended (R43, R303). -/
theorem settleActs_outermost {a : Activation} (h : settleTodo a.todo = []) :
    settleActs [a] = [{ a with todo := [] }] := by
  simp [settleActs, h]

/-- No position is lost: the host's activations never run out. -/
theorem settleActs_eq_nil {l : List Activation} : settleActs l = [] ↔ l = [] := by
  induction l with
  | nil => simp [settleActs]
  | cons a l ih =>
    rw [settleActs]
    split
    · split
      · simp
      · rename_i h
        simpa [ih] using h
    · simp

/-! ## The host's own steps -/

/-- What a step of the host that issues no word leaves alone: the block, the marks and the counters (R121, R279). -/
def SameBlock (s t : State) : Prop :=
  t.twi = s.twi ∧ t.tmr = s.tmr ∧ t.gpio = s.gpio ∧ t.faulted = s.faulted ∧ t.refused = s.refused ∧
  t.draws = s.draws ∧ t.turn = s.turn

theorem SameBlock.refl (s : State) : SameBlock s s := ⟨rfl, rfl, rfl, rfl, rfl, rfl, rfl⟩

theorem sameBlock_continueWith (s : State) (l : List Activation) : SameBlock s (continueWith s l) :=
  ⟨rfl, rfl, rfl, rfl, rfl, rfl, rfl⟩

theorem afterBus_sameBlock (s : State) : SameBlock s (afterBus s) := by
  unfold afterBus
  split
  · exact .refl s
  · split
    · exact sameBlock_continueWith _ _
    · exact .refl s

@[simp] theorem afterBus_faultSite (s : State) : (afterBus s).thread.faultSite = s.thread.faultSite := by
  unfold afterBus
  split
  · rfl
  · split <;> rfl

@[simp] theorem afterBus_emitted (s : State) : (afterBus s).thread.emitted = s.thread.emitted := by
  unfold afterBus
  split
  · rfl
  · split <;> rfl

theorem callProc_sameBlock {s t : State} {a : Activation} {callers : List Activation} {p : ProcName}
    {args : List Expr} {dst : Option Dest} (h : callProc s a callers p args dst = .next t) : SameBlock s t := by
  obtain ⟨-, h⟩ := require_eq_next h
  cases h
  exact sameBlock_continueWith _ _

theorem returnFrom_sameBlock {s t : State} {a : Activation} {callers : List Activation} {r : RetValue}
    (h : returnFrom s a callers r = .next t) : SameBlock s t := by
  cases r <;> cases h <;> exact sameBlock_continueWith _ _

theorem controlStmt_sameBlock {s t : State} {a : Activation} {callers : List Activation} {st : Stmt}
    (h : controlStmt s a callers st = .next t) : SameBlock s t := by
  cases st
  case call => exact callProc_sameBlock h
  case ret => exact returnFrom_sameBlock h
  all_goals first
    | (cases h; exact ⟨rfl, rfl, rfl, rfl, rfl, rfl, rfl⟩)
    | cases h

/-- A host step that issues no word changes nothing of the block. -/
theorem hostControl_sameBlock {s t : State} (h : hostControl s = .next t) : SameBlock s t := by
  unfold hostControl at h
  split at h
  · cases h; exact .refl s
  · split at h
    · exact controlStmt_sameBlock h
    all_goals (cases h; exact sameBlock_continueWith _ _)

/-- Everything a host step can do: a transaction of its next statement, or a step that changes nothing of the
block (R112). -/
theorem hostStep_cases {s t : State} (h : hostStep s = .next t) :
    (∃ w i u, fetch s = some w ∧ decode w = .ok i ∧ exec i s = .next u ∧ t = afterBus u) ∨
    (fetch s = none ∧ hostControl s = .next t) := by
  unfold hostStep at h
  split at h
  · obtain ⟨u, hu, rfl⟩ := mapNext_eq_next h
    obtain ⟨i, hi, he⟩ := transact_eq_next hu
    exact .inl ⟨_, i, u, by assumption, hi, he, rfl⟩
  · exact .inr ⟨by assumption, h⟩

/-! ## A step of the machine -/

/-- Everything a step can do when it answers a next state: no mark was set, and one enabled agent took its step, or
BUS, which alone had one, let the step pass (R6, R7). -/
theorem step_cases {s t : State} (h : step s = .next t) :
    s.faulted = false ∧ s.refused = false ∧
      ((∃ a u, mover s = some a ∧ agentStep a s = .next u ∧ t = passTurn u) ∨
       (mover s = none ∧ enabled .bus s = true ∧ t = passTurn s)) := by
  unfold step runStep at h
  split at h
  · cases h
  · rename_i hm
    simp only [Bool.or_eq_true, not_or, Bool.not_eq_true] at hm
    refine ⟨hm.1, hm.2, ?_⟩
    split at h
    · split at h
      · cases h; exact .inr ⟨by assumption, by assumption, rfl⟩
      · cases h
    · obtain ⟨u, hu, rfl⟩ := mapNext_eq_next h
      exact .inl ⟨_, u, by assumption, hu, rfl⟩

/-- A step in which an agent moves, where no mark is set (R6). -/
theorem step_of_mover {s : State} {a : Agent} (hf : s.faulted = false) (hr : s.refused = false)
    (hm : mover s = some a) : step s = mapNext (agentStep a s) passTurn := by
  simp [step, runStep, hf, hr, hm]

/-- The agent that moves has an enabled step (R6). -/
theorem mover_enabled {s : State} {a : Agent} (h : mover s = some a) : enabled a s = true := by
  unfold mover at h
  split at h
  · cases h; assumption
  · simpa using List.find?_some h

end Sys2Proof.Machine
end

