-- ==== Sys2Proof/Laws/PerInstr.lean ====
section
/-! SUPPORT. A statement made per instruction: a well-formed instruction's word lies in its row of the opcode map
(R84). `rowOf` gives each instruction its row's mask and match, as spec/opcode_table.json has them. -/

namespace Sys2Proof.Laws.RowMatch

/-- The mask and the match of an instruction's row in spec/opcode_table.json. -/
def rowOf : Instr → BusWord × BusWord
  | .rdPinb => (0x1FFFF00, 0x0002300)
  | .wrPinb _ => (0x1FFFF00, 0x1002300)
  | .rdDdrb => (0x1FFFF00, 0x0002400)
  | .wrDdrb _ => (0x1FFFF00, 0x1002400)
  | .rdPortb => (0x1FFFF00, 0x0002500)
  | .wrPortb _ => (0x1FFFF00, 0x1002500)
  | .rdTifr0 => (0x1FFFF00, 0x0003500)
  | .wrTifr0 _ => (0x1FFFF00, 0x1003500)
  | .rdTccr0a => (0x1FFFF00, 0x0004400)
  | .wrTccr0a _ => (0x1FFFFFD, 0x1004400)
  | .rdTccr0b => (0x1FFFF00, 0x0004500)
  | .wrTccr0b _ => (0x1FFFFFC, 0x1004500)
  | .wrTccr0bHi _ => (0x1FFFFFE, 0x1004504)
  | .rdTcnt0 => (0x1FFFF00, 0x0004600)
  | .wrTcnt0 _ => (0x1FFFF00, 0x1004600)
  | .rdOcr0a => (0x1FFFF00, 0x0004700)
  | .wrOcr0a _ => (0x1FFFF00, 0x1004700)
  | .rdOcr0b => (0x1FFFF00, 0x0004800)
  | .wrOcr0b _ => (0x1FFFF00, 0x1004800)
  | .rdTimsk0 => (0x1FFFF00, 0x0006E00)
  | .wrTimsk0 _ => (0x1FFFFFF, 0x1006E00)
  | .rdTwbr => (0x1FFFF00, 0x000B800)
  | .wrTwbr _ => (0x1FFFF00, 0x100B800)
  | .rdTwsr => (0x1FFFF00, 0x000B900)
  | .wrTwsr _ => (0x1FFFF00, 0x100B900)
  | .rdTwdr => (0x1FFFF00, 0x000BB00)
  | .wrTwdr _ => (0x1FFFF00, 0x100BB00)
  | .rdTwcr => (0x1FFFF00, 0x000BC00)
  | .wrTwcrDisable _ => (0x1FFFF35, 0x100BC00)
  | .wrTwcrConfig _ => (0x1FFFFB5, 0x100BC04)
  | .wrTwcrStart _ => (0x1FFFFB5, 0x100BCA4)
  | .wrTwcrStopStart _ => (0x1FFFFB5, 0x100BCB4)
  | .wrTwcrStop _ => (0x1FFFFB5, 0x100BC94)
  | .wrTwcrContAck _ => (0x1FFFFF5, 0x100BCC4)
  | .wrTwcrContNack _ => (0x1FFFFF5, 0x100BC84)

/-- The word of a well-formed instruction is of its row. -/
def Statement (i : Instr) : Prop := i.wf = true → encode i &&& (rowOf i).1 = (rowOf i).2

theorem rdPinb : Statement .rdPinb := by unfold Statement; decide
theorem wrPinb (v : Byte) : Statement (.wrPinb v) := by revert v; unfold Statement; decide
theorem rdDdrb : Statement .rdDdrb := by unfold Statement; decide
theorem wrDdrb (v : Byte) : Statement (.wrDdrb v) := by revert v; unfold Statement; decide
theorem rdPortb : Statement .rdPortb := by unfold Statement; decide
theorem wrPortb (v : Byte) : Statement (.wrPortb v) := by revert v; unfold Statement; decide
theorem rdTifr0 : Statement .rdTifr0 := by unfold Statement; decide
theorem wrTifr0 (v : Byte) : Statement (.wrTifr0 v) := by revert v; unfold Statement; decide
theorem rdTccr0a : Statement .rdTccr0a := by unfold Statement; decide
theorem wrTccr0a (v : Byte) : Statement (.wrTccr0a v) := by revert v; unfold Statement; decide
theorem rdTccr0b : Statement .rdTccr0b := by unfold Statement; decide
theorem wrTccr0b (v : Byte) : Statement (.wrTccr0b v) := by revert v; unfold Statement; decide
theorem wrTccr0bHi (v : Byte) : Statement (.wrTccr0bHi v) := by revert v; unfold Statement; decide
theorem rdTcnt0 : Statement .rdTcnt0 := by unfold Statement; decide
theorem wrTcnt0 (v : Byte) : Statement (.wrTcnt0 v) := by revert v; unfold Statement; decide
theorem rdOcr0a : Statement .rdOcr0a := by unfold Statement; decide
theorem wrOcr0a (v : Byte) : Statement (.wrOcr0a v) := by revert v; unfold Statement; decide
theorem rdOcr0b : Statement .rdOcr0b := by unfold Statement; decide
theorem wrOcr0b (v : Byte) : Statement (.wrOcr0b v) := by revert v; unfold Statement; decide
theorem rdTimsk0 : Statement .rdTimsk0 := by unfold Statement; decide
theorem wrTimsk0 (v : Byte) : Statement (.wrTimsk0 v) := by revert v; unfold Statement; decide
theorem rdTwbr : Statement .rdTwbr := by unfold Statement; decide
theorem wrTwbr (v : Byte) : Statement (.wrTwbr v) := by revert v; unfold Statement; decide
theorem rdTwsr : Statement .rdTwsr := by unfold Statement; decide
theorem wrTwsr (v : Byte) : Statement (.wrTwsr v) := by revert v; unfold Statement; decide
theorem rdTwdr : Statement .rdTwdr := by unfold Statement; decide
theorem wrTwdr (v : Byte) : Statement (.wrTwdr v) := by revert v; unfold Statement; decide
theorem rdTwcr : Statement .rdTwcr := by unfold Statement; decide
theorem wrTwcrDisable (v : Byte) : Statement (.wrTwcrDisable v) := by revert v; unfold Statement; decide
theorem wrTwcrConfig (v : Byte) : Statement (.wrTwcrConfig v) := by revert v; unfold Statement; decide
theorem wrTwcrStart (v : Byte) : Statement (.wrTwcrStart v) := by revert v; unfold Statement; decide
theorem wrTwcrStopStart (v : Byte) : Statement (.wrTwcrStopStart v) := by revert v; unfold Statement; decide
theorem wrTwcrStop (v : Byte) : Statement (.wrTwcrStop v) := by revert v; unfold Statement; decide
theorem wrTwcrContAck (v : Byte) : Statement (.wrTwcrContAck v) := by revert v; unfold Statement; decide
theorem wrTwcrContNack (v : Byte) : Statement (.wrTwcrContNack v) := by revert v; unfold Statement; decide

end Sys2Proof.Laws.RowMatch
end

