-- ==== Sys2Proof/Tests/Slice0.lean ====
section
/-! SUPPORT. Tests: the check of ill-formed terms, decoding of words written out from the spec, the vectors of
spec/95_test_vectors.md, and a witness for the hypotheses of every obligation. Each is about one step. -/

namespace Sys2Proof.Tests

open Sys2Proof Sys2Proof.Machine Sys2Proof.Safety

/-! ## Small states -/

/-- After reset, with a host whose sequence has ended. -/
def base : State := { State.reset with thread := { acts := [], faultSite := none, emitted := [], rdata := 0x00 } }

/-- The unit enabled and idle. -/
def idleTwi : Twi := { Twi.reset with en := true, phase := .idle }

/-- The unit held with this status (`Held s` of the vectors). -/
def heldTwi (st : Byte) (owns : Bool) : Twi :=
  { Twi.reset with en := true, phase := .held, int := true, tws := statusField st, owns := owns }

/-- The unit with this operation pending. -/
def pendingTwi (op : TwiOp) : Twi :=
  { Twi.reset with en := true, phase := .pending op, sto := op == .stopStart }

/-- The unit stopping. -/
def stoppingTwi : Twi := { Twi.reset with en := true, phase := .stopping, sto := true, owns := true }

def withTwi (t : Twi) : State := { base with twi := t }
def withTmr (t : Tmr) : State := { base with tmr := t }
def withGpio (g : Gpio) : State := { base with gpio := g }

/-- The host about to run a sequence. -/
def hosting (p : Prog) : State := setActs base [⟨[], [], [.seq p], none⟩]

/-- CTC with a threshold, a count and the compare block. -/
def ctcTmr (ocra tcnt : Byte) (block : Bool) : Tmr :=
  { Tmr.reset with tccr0a := 0x02, tccr0b := 0x03, ocra := ocra, tcnt := tcnt, cmBlock := block }

def nextOf (o : Result) : Option State :=
  match o with
  | .next t => some t
  | .fault _ => none
  | .refused _ => none

def refusalOf (o : Result) : Option Refusal :=
  match o with
  | .next _ => none
  | .fault _ => none
  | .refused r => some r

def faultOf (o : Result) : Option Fault :=
  match o with
  | .next _ => none
  | .fault r => some r
  | .refused _ => none

def twiOf (o : Result) : Option Twi := (nextOf o).map State.twi
def tmrOf (o : Result) : Option Tmr := (nextOf o).map State.tmr
def gpioOf (o : Result) : Option Gpio := (nextOf o).map State.gpio
def readOf (o : Result) : Option Byte := (nextOf o).map (fun s => s.thread.rdata)
def phaseOf (o : Result) : Option Phase := (twiOf o).map Twi.phase

/-- The instruction a word decodes to. -/
def read (w : BusWord) : Option Instr :=
  match decode w with
  | .ok i => some i
  | .error _ => none

def rejects (w : BusWord) (e : DecodeError) : Bool :=
  match decode w with
  | .ok _ => false
  | .error f => f == e

/-! ## WellFormed: a term that each check refuses (R84, R134, R144) -/

theorem test_wf_refuses_wrTccr0a : Instr.wf (.wrTccr0a 0x42) = false := by decide
theorem test_wf_refuses_wrTccr0b : Instr.wf (.wrTccr0b 0x04) = false := by decide
theorem test_wf_refuses_wrTccr0bHi : Instr.wf (.wrTccr0bHi 0x06) = false := by decide
theorem test_wf_refuses_wrTimsk0 : Instr.wf (.wrTimsk0 0x02) = false := by decide
theorem test_wf_refuses_wrTwcrDisable : Instr.wf (.wrTwcrDisable 0x04) = false := by decide
theorem test_wf_refuses_wrTwcrConfig : Instr.wf (.wrTwcrConfig 0x84) = false := by decide
theorem test_wf_refuses_wrTwcrStart : Instr.wf (.wrTwcrStart 0xB4) = false := by decide
theorem test_wf_refuses_wrTwcrStopStart : Instr.wf (.wrTwcrStopStart 0xA4) = false := by decide
theorem test_wf_refuses_wrTwcrStop : Instr.wf (.wrTwcrStop 0x84) = false := by decide
theorem test_wf_refuses_wrTwcrContAck : Instr.wf (.wrTwcrContAck 0x84) = false := by decide
theorem test_wf_refuses_wrTwcrContNack : Instr.wf (.wrTwcrContNack 0xC4) = false := by decide
theorem test_wf_refuses_interrupt_enable : Instr.wf (.wrTwcrStart 0xA5) = false := by decide

/-! ## Decoding: words written bit by bit as W, A, D (R80) from the rows of R84 -/

theorem test_decode_gpio_bits :
    read 0b0_0000000000100011_00000000 = some .rdPinb ∧
    read 0b1_0000000000100011_00100000 = some (.wrPinb 0x20) ∧
    read 0b0_0000000000100100_00000000 = some .rdDdrb ∧
    read 0b1_0000000000100100_00100000 = some (.wrDdrb 0x20) ∧
    read 0b0_0000000000100101_00000000 = some .rdPortb ∧
    read 0b1_0000000000100101_00100000 = some (.wrPortb 0x20) := by decide

theorem test_decode_timer_bits :
    read 0b0_0000000000110101_00000000 = some .rdTifr0 ∧
    read 0b1_0000000000110101_00000010 = some (.wrTifr0 0x02) ∧
    read 0b0_0000000001000100_00000000 = some .rdTccr0a ∧
    read 0b1_0000000001000100_00000010 = some (.wrTccr0a 0x02) ∧
    read 0b0_0000000001000101_00000000 = some .rdTccr0b ∧
    read 0b1_0000000001000101_00000011 = some (.wrTccr0b 0x03) ∧
    read 0b1_0000000001000101_00000101 = some (.wrTccr0bHi 0x05) ∧
    read 0b0_0000000001000110_00000000 = some .rdTcnt0 ∧
    read 0b1_0000000001000110_10000001 = some (.wrTcnt0 0x81) ∧
    read 0b0_0000000001000111_00000000 = some .rdOcr0a ∧
    read 0b1_0000000001000111_11111001 = some (.wrOcr0a 0xF9) ∧
    read 0b0_0000000001001000_00000000 = some .rdOcr0b ∧
    read 0b1_0000000001001000_00000111 = some (.wrOcr0b 0x07) ∧
    read 0b0_0000000001101110_00000000 = some .rdTimsk0 ∧
    read 0b1_0000000001101110_00000000 = some (.wrTimsk0 0x00) := by decide

theorem test_decode_twi_bits :
    read 0b0_0000000010111000_00000000 = some .rdTwbr ∧
    read 0b1_0000000010111000_00001100 = some (.wrTwbr 0x0C) ∧
    read 0b0_0000000010111001_00000000 = some .rdTwsr ∧
    read 0b1_0000000010111001_00000011 = some (.wrTwsr 0x03) ∧
    read 0b0_0000000010111011_00000000 = some .rdTwdr ∧
    read 0b1_0000000010111011_11010000 = some (.wrTwdr 0xD0) ∧
    read 0b0_0000000010111100_00000000 = some .rdTwcr := by decide

theorem test_decode_twcr_bits :
    read 0b1_0000000010111100_01000000 = some (.wrTwcrDisable 0x40) ∧
    read 0b1_0000000010111100_00000100 = some (.wrTwcrConfig 0x04) ∧
    read 0b1_0000000010111100_10100100 = some (.wrTwcrStart 0xA4) ∧
    read 0b1_0000000010111100_10110100 = some (.wrTwcrStopStart 0xB4) ∧
    read 0b1_0000000010111100_10010100 = some (.wrTwcrStop 0x94) ∧
    read 0b1_0000000010111100_11000100 = some (.wrTwcrContAck 0xC4) ∧
    read 0b1_0000000010111100_10000100 = some (.wrTwcrContNack 0x84) := by decide

/-- R84: the data bits of a read are ignored; R90: bits 3 and 1 of a TWCR write are kept in the instruction. -/
theorem test_decode_ignored_bits :
    read 0x00023FF = some .rdPinb ∧ read 0x100BCAE = some (.wrTwcrStart 0xAE) := by decide

/-- R63, R82, R89: what no row matches. -/
theorem test_decode_rejects :
    rejects 0x0000000 .unmapped = true ∧ rejects 0x100BA01 .unmapped = true ∧ rejects 0x100BDA5 .unmapped = true ∧
    rejects 0x1004442 .reservedValue = true ∧ rejects 0x1004506 .reservedValue = true ∧
    rejects 0x1004508 .reservedValue = true ∧ rejects 0x100BC24 .reservedValue = true ∧
    rejects 0x1006E02 .interruptEnable = true ∧ rejects 0x100BCA5 .interruptEnable = true := by decide

/-- The table's numbering of bits: bit 0 is the lowest data bit, a number above 25 bits is no transaction. -/
theorem test_decode_table_word :
    decodeTableWord 32 0x100BCA4 = some (.wrTwcrStart 0xA4) ∧ decodeTableWord 25 0x0002300 = some .rdPinb ∧
    decodeTableWord 32 0x300BCA4 = none := by decide

/-- R61: the I/O-space aliases of PINB, TIFR0 and OCR0B. -/
theorem test_io_alias :
    dataAddrOfIo 0x03 = addrPinb ∧ dataAddrOfIo 0x15 = addrTifr0 ∧ dataAddrOfIo 0x28 = addrOcr0b := by decide

/-! ## GPIO (vectors G1 to G7 of 95_test_vectors.md, section 2.3) -/

/-- G1: the level may have changed, the pin drives low, the LED is off. -/
theorem test_wrDdrb_stale :
    gpioOf (exec (.wrDdrb 0x20) base) = some ⟨0x20, 0x00, 0x20⟩ ∧ drive ⟨0x20, 0x00, 0x20⟩ 5 = .driveLow ∧
    ledLit Config.params ⟨0x20, 0x00, 0x20⟩ = false := by decide

/-- R160 example. -/
theorem test_rdDdrb : readOf (exec .rdDdrb (withGpio ⟨0x20, 0x00, 0x00⟩)) = some 0x20 := by decide

/-- G5: an input with its latch at 1 is a pull-up. -/
theorem test_wrPortb_pullup :
    gpioOf (exec (.wrPortb 0x20) base) = some ⟨0x00, 0x20, 0x20⟩ ∧ drive ⟨0x00, 0x20, 0x20⟩ 5 = .pullUp := by decide

/-- G6. -/
theorem test_rdPortb : readOf (exec .rdPortb (withGpio ⟨0x20, 0x20, 0x00⟩)) = some 0x20 := by decide

/-- G4: the write toggles PORTB, the LED is lit. -/
theorem test_wrPinb_toggles :
    gpioOf (exec (.wrPinb 0x20) (withGpio ⟨0x20, 0x00, 0x00⟩)) = some ⟨0x20, 0x20, 0x20⟩ ∧
    ledLit Config.params ⟨0x20, 0x20, 0x20⟩ = true := by decide

/-- G7: a byte of zeros changes nothing and leaves no bit stale. -/
theorem test_wrPinb_zero :
    gpioOf (exec (.wrPinb 0x00) (withGpio ⟨0x20, 0x20, 0x20⟩)) = some ⟨0x20, 0x20, 0x00⟩ := by decide

/-- A PINB read with every pin a settled output, G3 for all bits: no draw shows. -/
theorem test_rdPinb_outputs : ∀ d : Byte, pinLevels ⟨0xFF, 0x5A, 0x00⟩ d = 0x5A := by decide

/-- G2: the stale bit 5 and the inputs are the draw's, then the mask is clear. -/
theorem test_rdPinb_stale :
    (∀ d : Byte, pinLevels ⟨0x30, 0x10, 0x20⟩ d = (0x10 ||| (d &&& 0xEF))) ∧
    gpioOf (exec .rdPinb (withGpio ⟨0x20, 0x00, 0x20⟩)) = some ⟨0x20, 0x00, 0x00⟩ := by decide

/-! ## Timer (vectors M1 to M19, section 2.2) -/

/-- M1, M2, M3. -/
theorem test_wrTccr0a :
    tmrOf (exec (.wrTccr0a 0x02) base) = some { Tmr.reset with tccr0a := 0x02 } ∧
    refusalOf (transact 0x1004442 base) = some .reservedValue ∧
    refusalOf (transact 0x1004403 base) = some .reservedValue := by decide

theorem test_rdTccr0a : readOf (exec .rdTccr0a (withTmr { Tmr.reset with tccr0a := 0x02 })) = some 0x02 := by decide

/-- R133 example; M5, M6. -/
theorem test_wrTccr0b :
    tmrOf (exec (.wrTccr0b 0x03) base) = some { Tmr.reset with tccr0b := 0x03 } ∧
    refusalOf (transact 0x1004506 base) = some .reservedValue ∧
    refusalOf (transact 0x1004508 base) = some .reservedValue := by decide

/-- M4. -/
theorem test_wrTccr0bHi : tmrOf (exec (.wrTccr0bHi 0x05) base) = some { Tmr.reset with tccr0b := 0x05 } := by decide

theorem test_rdTccr0b : readOf (exec .rdTccr0b (withTmr { Tmr.reset with tccr0b := 0x03 })) = some 0x03 := by decide

/-- M19. -/
theorem test_wrTcnt0_blocks :
    tmrOf (exec (.wrTcnt0 0x07) (withTmr { Tmr.reset with tcnt := 0x80 })) =
      some { Tmr.reset with tcnt := 0x07, cmBlock := true } := by decide

theorem test_rdTcnt0 : readOf (exec .rdTcnt0 (withTmr { Tmr.reset with tcnt := 0x80 })) = some 0x80 := by decide

/-- R138 example: 249 is 0xF9. -/
theorem test_wrOcr0a : tmrOf (exec (.wrOcr0a 249) base) = some { Tmr.reset with ocra := 0xF9 } := by decide

/-- R137 example. -/
theorem test_rdOcr0a : readOf (exec .rdOcr0a (withTmr { Tmr.reset with ocra := 249 })) = some 0xF9 := by decide

/-- R140 example. -/
theorem test_wrOcr0b : tmrOf (exec (.wrOcr0b 7) base) = some { Tmr.reset with ocrb := 0x07 } := by decide

theorem test_rdOcr0b : readOf (exec .rdOcr0b (withTmr { Tmr.reset with ocra := 9, ocrb := 7 })) = some 0x07 := by decide

/-- M16, M17. -/
theorem test_wrTifr0 :
    tmrOf (exec (.wrTifr0 0x02) (withTmr { Tmr.reset with ocfa := true, ocfb := true, tov := true })) =
      some { Tmr.reset with ocfb := true, tov := true } ∧
    tmrOf (exec (.wrTifr0 0x00) (withTmr { Tmr.reset with ocfa := true, ocfb := true, tov := true })) =
      some { Tmr.reset with ocfa := true, ocfb := true, tov := true } := by decide

/-- R141 example, and each bit's place (R35): OCF0B is bit 2, TOV0 bit 0. -/
theorem test_rdTifr0 :
    readOf (exec .rdTifr0 (withTmr { Tmr.reset with ocfa := true })) = some 0x02 ∧
    readOf (exec .rdTifr0 (withTmr { Tmr.reset with ocfb := true })) = some 0x04 ∧
    readOf (exec .rdTifr0 (withTmr { Tmr.reset with tov := true })) = some 0x01 := by decide

/-- M7. -/
theorem test_wrTimsk0 :
    tmrOf (exec (.wrTimsk0 0x00) base) = some Tmr.reset ∧
    refusalOf (transact 0x1006E02 base) = some .interruptEnable := by decide

theorem test_rdTimsk0 : readOf (exec .rdTimsk0 base) = some 0x00 := by decide

/-- M8's third tick, M9, M10. -/
theorem test_tick_ctc :
    (∀ d, tick d (ctcTmr 2 2 false) = { ctcTmr 2 0 false with ocfa := true }) ∧
    (∀ d, tick d (ctcTmr 0 0 false) = { ctcTmr 0 0 false with ocfa := true, ocfb := true }) ∧
    (∀ d, tick d (ctcTmr 0xFF 0xFF false) = { ctcTmr 0xFF 0 false with ocfa := true, tov := true }) := by decide

/-- M11, M12: Normal mode counts on and wraps. -/
theorem test_tick_normal :
    (∀ d, tick d { Tmr.reset with ocra := 0x10, tcnt := 0xFF } = { Tmr.reset with ocra := 0x10, tov := true }) ∧
    (∀ d, tick d { Tmr.reset with ocra := 0x10, tcnt := 0x10 } =
      { Tmr.reset with ocra := 0x10, tcnt := 0x11, ocfa := true }) := by decide

/-- M13: a blocked match sets no flag and counts on or clears. -/
theorem test_tick_blocked :
    tick false (ctcTmr 3 3 true) = ctcTmr 3 4 false ∧ tick true (ctcTmr 3 3 true) = ctcTmr 3 0 false := by decide

/-- M18. -/
theorem test_tclk_stopped : enabled .tclk base = false ∧ enabled .tclk (withTmr (ctcTmr 0 0 false)) = true := by decide

/-! ## TWI (vectors T1 to T33, section 2.4) -/

/-- R180 example. -/
theorem test_twbr :
    (twiOf (exec (.wrTwbr 12) base)).map Twi.twbr = some 0x0C ∧
    readOf (exec .rdTwbr (withTwi { Twi.reset with twbr := 12 })) = some 0x0C := by decide

/-- T30, and R182's example with the prescaler bits set. -/
theorem test_twsr :
    (twiOf (exec (.wrTwsr 0xFF) (withTwi idleTwi))) = some { idleTwi with twps := 3 } ∧
    readOf (exec .rdTwsr (withTwi { idleTwi with twps := 3 })) = some 0xFB ∧
    readOf (exec .rdTwsr (withTwi { heldTwi 0x08 true with twps := 3 })) = some 0x0B := by decide

/-- T7, T8, T9. -/
theorem test_wrTwdr :
    (twiOf (exec (.wrTwdr 0xD0) (withTwi (heldTwi 0x08 true)))) = some { heldTwi 0x08 true with twdr := 0xD0 } ∧
    (twiOf (exec (.wrTwdr 0x55) (withTwi idleTwi))) = some { idleTwi with wc := true } ∧
    refusalOf (exec (.wrTwdr 0x55) base) = some .twiDisabledAccess := by decide

/-- R184 example; T29: while pending the byte is a draw, and the draw is used. -/
theorem test_rdTwdr :
    readOf (exec .rdTwdr (withTwi { heldTwi 0x50 true with twdr := 0x3C })) = some 0x3C ∧
    readOf (exec .rdTwdr (withTwi (pendingTwi (.tx 0x6B)))) = some (Config.freeByte 0) ∧
    (nextOf (exec .rdTwdr (withTwi (pendingTwi (.tx 0x6B))))).map State.draws = some 1 := ⟨rfl, rfl, rfl⟩

/-- T2, T4, T8, T12: TWCR as read in each. -/
theorem test_rdTwcr :
    readOf (exec .rdTwcr (withTwi { pendingTwi .start with sta := true })) = some 0x24 ∧
    readOf (exec .rdTwcr (withTwi { heldTwi 0x08 true with sta := true })) = some 0xA4 ∧
    readOf (exec .rdTwcr (withTwi { idleTwi with wc := true })) = some 0x0C ∧
    readOf (exec .rdTwcr (withTwi stoppingTwi)) = some 0x14 := by decide

/-- T28, and the example of R189. -/
theorem test_disable :
    twiOf (exec (.wrTwcrDisable 0x00) (withTwi (pendingTwi (.tx 0x6B)))) = some Twi.reset ∧
    twiOf (exec (.wrTwcrDisable 0x00) (withTwi (heldTwi 0x58 true))) = some Twi.reset := by decide

/-- T1, T31. -/
theorem test_config :
    twiOf (exec (.wrTwcrConfig 0x04) base) = some idleTwi ∧
    twiOf (exec (.wrTwcrConfig 0x44) (withTwi (heldTwi 0x18 true))) = some { heldTwi 0x18 true with ea := true } := by
  decide

/-- T2, T3, T16, T22, T25. -/
theorem test_start :
    twiOf (exec (.wrTwcrStart 0xA4) (withTwi idleTwi)) = some { pendingTwi .start with sta := true } ∧
    twiOf (exec (.wrTwcrStart 0xA4) base) = some { pendingTwi .start with sta := true } ∧
    phaseOf (exec (.wrTwcrStart 0xA4) (withTwi (heldTwi 0x28 true))) = some (.pending .repStart) ∧
    phaseOf (exec (.wrTwcrStart 0xA4) (withTwi (heldTwi 0x58 true))) = some (.pending .repStart) ∧
    phaseOf (exec (.wrTwcrStart 0xA4) (withTwi (heldTwi 0x38 false))) = some (.pending .start) := by decide

/-- T6, T14. -/
theorem test_start_refused :
    refusalOf (exec (.wrTwcrStart 0xA4) (withTwi (heldTwi 0x08 true))) = some .twiIllegalCommand ∧
    refusalOf (exec (.wrTwcrStart 0xA4) (withTwi stoppingTwi)) = some .twiBusy := by decide

/-- T17. -/
theorem test_stopStart :
    twiOf (exec (.wrTwcrStopStart 0xB4) (withTwi (heldTwi 0x28 true))) =
      some { pendingTwi .stopStart with sta := true, owns := true } ∧
    complete .stopStart 0x08 0x00 { pendingTwi .stopStart with sta := true, owns := true } =
      { heldTwi 0x08 true with sta := true } := by decide

/-- T12, T23. -/
theorem test_stop :
    twiOf (exec (.wrTwcrStop 0x94) (withTwi (heldTwi 0x20 true))) = some stoppingTwi ∧
    twiOf (exec (.wrTwcrStop 0x94) (withTwi (heldTwi 0x00 true))) = some idleTwi := by decide

/-- T15, T20. -/
theorem test_stop_refused :
    refusalOf (exec (.wrTwcrStop 0x94) (withTwi (heldTwi 0x08 true))) = some .twiIllegalCommand ∧
    refusalOf (exec (.wrTwcrStop 0x94) (withTwi (heldTwi 0x50 true))) = some .twiIllegalCommand := by decide

/-- T18, and the same with the sender's receive already under way (0x50). -/
theorem test_contAck :
    phaseOf (exec (.wrTwcrContAck 0xC4) (withTwi (heldTwi 0x40 true))) = some (.pending .rxAck) ∧
    phaseOf (exec (.wrTwcrContAck 0xC4) (withTwi (heldTwi 0x50 true))) = some (.pending .rxAck) := by decide

/-- T10, T19, T21, T24. -/
theorem test_contNack :
    twiOf (exec (.wrTwcrContNack 0x84) (withTwi { heldTwi 0x08 true with twdr := 0xD0, sta := true })) =
      some { pendingTwi (.sla 0xD0) with twdr := 0xD0, owns := true } ∧
    phaseOf (exec (.wrTwcrContNack 0x84) (withTwi (heldTwi 0x50 true))) = some (.pending .rxNack) ∧
    refusalOf (exec (.wrTwcrContNack 0x84) (withTwi (heldTwi 0x58 true))) = some .twiIllegalCommand ∧
    twiOf (exec (.wrTwcrContNack 0x84) (withTwi (heldTwi 0x38 false))) = some idleTwi := by decide

/-- T5, T26, T27, X1, X2, X3: the order of the refusals. -/
theorem test_refusal_order :
    refusalOf (transact 0x100BC84 (withTwi (pendingTwi .start))) = some .twiBusy ∧
    refusalOf (transact 0x100BCA5 base) = some .interruptEnable ∧
    refusalOf (transact 0x100BC24 base) = some .reservedValue ∧
    refusalOf (transact 0x100BCA5 (withTwi (pendingTwi .start))) = some .interruptEnable ∧
    refusalOf (transact 0x100BC24 (withTwi (pendingTwi .start))) = some .reservedValue ∧
    faultOf (transact 0x100BDA5 base) = some .unmapped := by decide

/-- T4, T11, T18, T32: completions with a given status and byte. -/
theorem test_complete :
    complete .start 0x08 0x77 { pendingTwi .start with sta := true } = { heldTwi 0x08 true with sta := true } ∧
    complete (.sla 0xD0) 0x20 0x77 { pendingTwi (.sla 0xD0) with twdr := 0xD0, owns := true } =
      { heldTwi 0x20 true with twdr := 0xD0 } ∧
    complete .rxAck 0x50 0xAB { pendingTwi .rxAck with owns := true } = { heldTwi 0x50 true with twdr := 0xAB } ∧
    complete (.tx 0x6B) 0x38 0x77 { pendingTwi (.tx 0x6B) with owns := true } =
      { heldTwi 0x38 false with twdr := 0x77 } := by decide

/-- T13, T33. -/
theorem test_bus_steps :
    (busStep (withTwi stoppingTwi)).twi = idleTwi ∧ enabled .bus (withTwi (heldTwi 0x18 true)) = false := by decide

/-! ## Host statements (vectors A1 to A12, V-L1-3, D-6) -/

/-- A1, A2. -/
theorem test_unmapped_transactions :
    faultOf (hostStep (hosting (.cons (.rd 0x0000 0) .done))) = some .unmapped ∧
    faultOf (hostStep (hosting (.cons (.wr 0x00BA (.lit 0x01)) .done))) = some .unmapped := by decide

/-- A3, A4, A5: the words, the bad index. -/
theorem test_bit_operations :
    refusalOf (hostStep (hosting (.cons (.setb addrDdrb 8) .done))) = some .badBitIndex ∧
    fetch (hosting (.cons (.setb addrDdrb 5) .done)) = some 0x0002400 ∧
    (nextOf (hostStep (hosting (.cons (.setb addrDdrb 5) .done)))).bind fetch = some 0x1002420 ∧
    (nextOf (hostStep { hosting (.cons (.clrb addrPortb 5) .done) with gpio := ⟨0x00, 0x21, 0x00⟩ })).bind fetch =
      some 0x1002501 := by decide

/-- A7: the host's one statement, after which its sequence has ended. -/
theorem test_test_bit :
    (nextOf (hostStep { hosting (.cons (.tstb addrTifr0 1 4) .done) with
      tmr := { Tmr.reset with ocfa := true } })).map (fun s => (s.thread.acts, hostEnabled s)) =
      some ([⟨[(4, 1)], [], [], none⟩], false) := by
  decide

/-- The example of R121, the end state of P5 (the local `c` of its last read), the end state of P2 (`buf`). -/
theorem test_results_stay :
    (nextOf (hostStep (hosting (.cons (.assign .byte 1 (.or (.shl (.lit 0x68) (.lit 1)) (.lit 1))) .done)))).map
      (fun s => s.thread.acts.map Activation.vars) = some [[(1, 0xD1)]] ∧
    (nextOf (hostStep { hosting (.cons (.rd addrTcnt0 2) .done) with tmr := Tmr.reset })).map
      (fun s => s.thread.acts.map Activation.vars) = some [[(2, 0)]] ∧
    (nextOf (hostStep (setActs base [⟨[], [0x12, 0x34], [.seq (.cons (.ret .buf) .done)], some .buf⟩,
      ⟨[], [], [.seq .done], none⟩]))).map (fun s => s.thread.acts) = some [⟨[], [0x12, 0x34], [], none⟩] := by
  decide

/-- A8: the written-back ones of TIFR0. -/
theorem test_bit_operation_hazard :
    (nextOf (hostStep { hosting (.cons (.setb addrTifr0 1) .done) with
      tmr := { Tmr.reset with tov := true } })).bind fetch = some 0x1003503 := by decide

/-- A11, and the end of the sequence (R303). -/
theorem test_loop_of_zero :
    (nextOf (hostStep (hosting (.loop (.lit 0) (.cons (.wr addrTifr0 (.lit 2)) .done) .done)))).map
      (fun s => (s.thread.acts, hostEnabled s)) = some ([⟨[], [], [], none⟩], false) := by decide

/-- D-6, D-10, V-L1-3. -/
theorem test_calls :
    refusalOf (hostStep (hosting (.cons (.call .addressWrite [.lit 0x80] none) .done))) = some .addrTooWide ∧
    ((nextOf (hostStep (hosting (.cons (.call .delayMilliseconds [.lit 0] none) .done)))).map fetch) = some none := by
  decide

/-- V-L1-9: 12 at the defaults, 72 at 100 kHz. -/
theorem test_bit_rate :
    twbrVal Config.params = 12 ∧ twbrVal { Config.params with sclHz := 100000 } = 72 := by decide

/-- V-L1-8: the address byte of 0x68 in each direction. -/
theorem test_address_byte :
    evalExpr 0 [(0, 0x68)] (.or (.shl (.var 0) (.lit 1)) (.lit 0)) = 0xD0 ∧
    evalExpr 0 [(0, 0x68)] (.or (.shl (.var 0) (.lit 1)) (.lit 1)) = 0xD1 := by decide

/-- R9 on natural numbers: a quotient rounds toward zero, a field, a bit and a concatenation. -/
theorem test_expressions :
    evalExpr 0 [] (.div (.lit 7) (.lit 2)) = 3 ∧ evalExpr 0 [] (.shr (.lit 0xD1) (.lit 1)) = 0x68 ∧
    evalExpr 0 [] (.slice (.lit 0xD1) (.lit 7) (.lit 4)) = 0xD ∧ evalExpr 0 [] (.bit (.lit 0xD1) (.lit 4)) = 1 ∧
    evalExpr 0 [] (.cat (.lit 3) (.lit 5) 3) = 0b11101 ∧ evalExpr 0 [] (.not (.lit 0x20)) = 0xDF := by decide

/-- R127: the bitwise operators are exact above a byte. -/
theorem test_wide_bitwise :
    evalExpr 0 [] (.or (.shl (.lit 0x12) (.lit 8)) (.lit 0x34)) = 0x1234 ∧
    evalExpr 0 [] (.and (.lit 0x1FF) (.lit 0x100)) = 0x100 ∧ evalExpr 0 [] (.xor (.lit 0x1FF) (.lit 0xFF)) = 0x100 := by
  decide

/-- Log 8: where the spec states no result it is free, and the statement runs. -/
theorem test_open_results :
    evalExpr 0 [] (.div (.lit 7) (.lit 0)) = Config.openResult .quotient [7, 0] ∧
    evalExpr 0 [] (.shr (.sub (.lit 0) (.lit 1)) (.lit 1)) = Config.openResult .shiftRight [-1, 1] ∧
    evalExpr 0 [] (.shl (.lit 1) (.sub (.lit 0) (.lit 1))) = Config.openResult .shiftLeft [1, -1] ∧
    evalExpr 0 [] (.slice (.lit 0xD1) (.lit 0) (.lit 1)) = Config.openResult .field [0xD1, 0, 1] ∧
    evalExpr 0 [] (.cat (.lit 1) (.lit 8) 3) = Config.openResult .concat [1, 8, 3] ∧
    evalExpr 0 [] (.not (.lit 256)) = Config.openResult .not [256] := ⟨rfl, rfl, rfl, rfl, rfl, rfl⟩

/-- Log 9: a local that nothing has bound is free, and the write of it is issued. -/
theorem test_unbound_local :
    fetch (hosting (.cons (.wr addrTwbr (.var 3)) .done)) =
      some (writeWord addrTwbr (toByte (Config.unboundLocal 0 3))) := rfl

/-- Log 9: a call without its argument runs, its parameter unbound. -/
theorem test_call_without_argument :
    (nextOf (hostStep (hosting (.cons (.call .writeByte [] none) .done)))).bind fetch =
      some (writeWord addrTwdr (toByte (Config.unboundLocal 0 0))) := rfl

/-- The line of an event in one format (R279). -/
theorem test_event_line :
    eventLine { Config.params with msgHexFormat := ⟨2, true, "0x", " "⟩ } "write data" (some 0x6B) =
      "write data 0x6B\r\n" ∧
    eventLine { Config.params with msgHexFormat := ⟨2, true, "0x", " "⟩ } "start" none = "start\r\n" := by decide

/-! ## Witnesses: states and operands that meet the hypotheses of the obligations, clause by clause -/

theorem witness_DecodeEncodeRoundTrip : Instr.wf (.wrTccr0b 0x03) = true ∧ Instr.wf (.wrTwcrStart 0xEE) = true := by
  decide

theorem witness_DecodedInstructionsAreWellFormed :
    decode 0x10023FF = .ok (.wrPinb 0xFF) ∧ (0x10023FF : BusWord).getLsbD 24 = true ∧
    decode 0x00023FF = .ok .rdPinb ∧ (0x00023FF : BusWord).getLsbD 24 = false := ⟨rfl, by decide, rfl, by decide⟩

theorem witness_DecoderFollowsTheMap :
    (0x00BA : Addr) ∉ addressMap ∧
    (⟨0x1FFFFFF, 0x1006E00, .wrTimsk0⟩ : Row) ∈ rows ∧ (0x1006E00 : BusWord) &&& 0x1FFFFFF = 0x1006E00 ∧
    (0x006E : Addr) ∈ addressMap ∧ (∀ r ∈ rows, (0x1006E01 : BusWord) &&& r.mask ≠ r.value) ∧
    (0x0045 : Addr) ∈ addressMap ∧ (∀ r ∈ rows, (0x1004506 : BusWord) &&& r.mask ≠ r.value) ∧
    decode 0x100BA00 = .error .unmapped ∧ decode 0x1006E01 = .error .interruptEnable ∧
    decode 0x1004506 = .error .reservedValue := by
  refine ⟨by decide, ?_, by decide, by decide, by decide, by decide, by decide, rfl, rfl, rfl⟩
  simp [rows, rowsTimer]

theorem witness_UnmappedAddressesFault :
    ∀ a ∈ ([0x0000, 0x0022, 0x0026, 0x0034, 0x0036, 0x0049, 0x00BA, 0x00BD, 0xFFFF] : List Addr),
      a ∉ ([0x0023, 0x0024, 0x0025, 0x0035, 0x0044, 0x0045, 0x0046, 0x0047, 0x0048, 0x006E, 0x00B8, 0x00B9, 0x00BB,
        0x00BC] : List Addr) := by
  intro a h
  simp only [List.mem_cons, List.not_mem_nil, or_false] at h
  rcases h with rfl | rfl | rfl | rfl | rfl | rfl | rfl | rfl | rfl <;> simp

/-- A word of an instruction, of none in each way, a statement without a word, each agent, and the passing of BUS. -/
theorem witness_StepRunsTheDecodedInstruction :
    (let s := State.reset.withFetchWord 32 0x100BCA4
     s.faulted = false ∧ s.refused = false ∧ mover s = some .host ∧ fetch s = some 0x100BCA4 ∧
     decode 0x100BCA4 = .ok (.wrTwcrStart 0xA4) ∧ phaseOf (step s) = some (.pending .start)) ∧
    (mover (State.reset.withFetchWord 32 0x000BA00) = some .host ∧ decode 0x000BA00 = .error .unmapped) ∧
    (mover (State.reset.withFetchWord 32 0x1006E01) = some .host ∧ decode 0x1006E01 = .error .interruptEnable) ∧
    (mover (State.reset.withFetchWord 32 0x1004506) = some .host ∧ decode 0x1004506 = .error .reservedValue) ∧
    (mover State.reset = some .host ∧ fetch State.reset = none) ∧
    mover { withTwi stoppingTwi with turn := .bus } = some .bus ∧
    mover { withTmr (ctcTmr 0 0 false) with turn := .tclk } = some .tclk ∧
    (mover (withTwi stoppingTwi) = none ∧ enabled .bus (withTwi stoppingTwi) = true) ∧
    (mover base = none ∧ enabled .bus base = false) :=
  ⟨⟨rfl, rfl, rfl, rfl, rfl, rfl⟩, ⟨rfl, rfl⟩, ⟨rfl, rfl⟩, ⟨rfl, rfl⟩, ⟨rfl, rfl⟩, rfl, rfl, ⟨rfl, rfl⟩, ⟨rfl, rfl⟩⟩

/-- R7, R216: with the host ended and the timer stopped, a pending operation stays pending where it is not the turn of
BUS. -/
theorem test_bus_lets_a_step_pass :
    phaseOf (step (withTwi (pendingTwi .start))) = some (.pending .start) ∧
    phaseOf (step { withTwi (pendingTwi .start) with turn := .bus }) = some .held := ⟨rfl, rfl⟩

theorem witness_NoStateIsStuck : hostEnabled State.reset = true := rfl

theorem witness_EnabledAgents :
    enabled State.reset.turn State.reset = true ∧ mover State.reset = some .host := ⟨rfl, rfl⟩

theorem witness_FetchWordIsIssuedNext :
    ((0x0002300 : BusWord).getLsbD 24 = false → (0x0002300 : BusWord).extractLsb' 0 8 = (0x00 : Byte)) ∧
    ((0x10023FF : BusWord).getLsbD 24 = false → (0x10023FF : BusWord).extractLsb' 0 8 = (0x00 : Byte)) := by decide

theorem witness_FaultsAndRefusalsEndTheRun :
    step (State.reset.withFetchWord 32 0x000BA00) = .fault .unmapped ∧
    step (State.reset.withFetchWord 32 0x100BC24) = .refused .reservedValue ∧
    (nextOf (step State.reset)).isSome = true := ⟨rfl, rfl, rfl⟩

theorem witness_AgentsChangeOnlyTheirOwn :
    (let s := { withTwi stoppingTwi with turn := .bus }
     mover s = some .bus ∧ (nextOf (step s)).isSome = true) ∧
    (let s := { withTmr (ctcTmr 0 0 false) with turn := .tclk }
     mover s = some .tclk ∧ (nextOf (step s)).isSome = true) ∧
    (mover State.reset = some .host ∧ fetch State.reset = none ∧ (nextOf (step State.reset)).isSome = true) ∧
    (mover (withTwi stoppingTwi) = none ∧ (nextOf (step (withTwi stoppingTwi))).isSome = true) :=
  ⟨⟨rfl, rfl⟩, ⟨rfl, rfl⟩, ⟨rfl, rfl, rfl⟩, ⟨rfl, rfl⟩⟩

theorem witness_ResetValues : (nextOf (exec .rdPinb State.reset)).isSome = true := rfl

theorem witness_StaleMaskAfterEveryTransaction :
    (nextOf (exec (.wrPortb 0xFF) base)).isSome = true ∧ (nextOf (exec .rdPinb base)).isSome = true ∧
    (∀ v, Instr.rdPinb ≠ .wrDdrb v ∧ Instr.rdPinb ≠ .wrPortb v ∧ Instr.rdPinb ≠ .wrPinb v) := by decide

theorem witness_TimerInv : TimerInv State.reset.tmr ∧ TimerInv { ctcTmr 0 0 false with tccr0b := 0x05 } := by
  unfold TimerInv; decide

/-- The bounds of the admitted bytes, and the first refused one of each. -/
theorem witness_TimerControlWrites :
    nextOf (exec (.wrTccr0a 0x00) base) ≠ none ∧ nextOf (exec (.wrTccr0b 0x00) base) ≠ none ∧
    nextOf (exec (.wrTccr0b 0x03) base) ≠ none ∧ nextOf (exec (.wrTccr0bHi 0x04) base) ≠ none ∧
    refusalOf (transact (busWord true 0x0044 0x01) base) = some .reservedValue ∧
    refusalOf (transact (busWord true 0x0045 0x06) base) = some .reservedValue ∧
    refusalOf (transact (busWord true 0x006E 0x01) base) = some .interruptEnable := by decide

/-- Each clause of the tick: a match, a blocked match, no match, and a blocked match at 0xFF. -/
theorem witness_TimerTick :
    let ctc (m : Tmr) := m.tccr0b.getLsbD 3 = false ∧ m.tccr0a &&& 0x03 = 0x02
    (ctc (ctcTmr 2 2 false) ∧ (ctcTmr 2 2 false).tcnt = (ctcTmr 2 2 false).ocra) ∧
    (ctc (ctcTmr 2 2 true) ∧ (ctcTmr 2 2 true).tcnt = (ctcTmr 2 2 true).ocra ∧ (ctcTmr 2 2 true).cmBlock = true) ∧
    (ctc (ctcTmr 0xFF 0xFF true) ∧ (ctcTmr 0xFF 0xFF true).tcnt = (ctcTmr 0xFF 0xFF true).ocra) ∧
    ¬ (ctc (ctcTmr 2 1 false) ∧ (ctcTmr 2 1 false).tcnt = (ctcTmr 2 1 false).ocra) ∧
    ¬ ctc Tmr.reset := by decide

/-- A threshold of 0 unblocked, one of 2 unblocked, and one of 1 after a write of TCNT0. -/
theorem witness_CompareMatchPeriod :
    (ctcMode (ctcTmr 0 0 false) = true ∧ (ticks [true] (ctcTmr 0 0 false)).ocfa = true) ∧
    (ctcMode (ctcTmr 2 0 false) = true ∧ (ticks [true, false] (ctcTmr 2 0 false)).ocfa = false ∧
      (ticks [true, false, true] (ctcTmr 2 0 false)).ocfa = true) ∧
    (ctcMode (ctcTmr 1 0 true) = true ∧ (ctcTmr 1 0 true).ocra ≠ 0x00 ∧
      (ticks [true] (ctcTmr 1 0 true)).ocfa = false ∧ (ticks [true, true] (ctcTmr 1 0 true)).ocfa = true) := by decide

/-- A count of 255 above a threshold of 1: the wrap after 1 tick, the flag after 3; blocked or not. -/
theorem witness_CountAboveTheThreshold :
    ctcMode (ctcTmr 1 255 true) = true ∧ (ctcTmr 1 255 true).ocra.toNat < (ctcTmr 1 255 true).tcnt.toNat ∧
    (ticks [false] (ctcTmr 1 255 true)).tov = true ∧ (ticks [false, true] (ctcTmr 1 255 true)).ocfa = false ∧
    (ticks [false, true, true] (ctcTmr 1 255 true)).ocfa = true := by decide

theorem witness_TwdrReads :
    (∃ op, (pendingTwi .rxAck).phase = .pending op) ∧ (∀ op, (heldTwi 0x50 true).phase ≠ .pending op) :=
  ⟨⟨_, rfl⟩, by intro op h; cases h⟩

theorem witness_TwdrWrites :
    base.twi.phase = .off ∧ ((heldTwi 0x08 true).phase ≠ .off ∧ (heldTwi 0x08 true).int = true) ∧
    (idleTwi.phase ≠ .off ∧ idleTwi.int = false) := by decide

theorem witness_ReservedBits :
    nextOf (exec .rdTwcr base) ≠ none ∧ nextOf (exec .rdTwsr base) ≠ none ∧ nextOf (exec .rdTifr0 base) ≠ none := by
  decide

/-- A byte under each clause: an interrupt enable, a reserved byte, a busy unit, DISABLE while busy, a free unit. -/
theorem witness_TwcrRefusalOrder :
    (0xFF : Byte).getLsbD 0 = true ∧
    ((0x20 : Byte).getLsbD 0 = false ∧ (0x20 : Byte).getLsbD 2 = false ∧ (0x20 : Byte).getLsbD 5 = true) ∧
    ((0x14 : Byte).getLsbD 0 = false ∧ (0x14 : Byte).getLsbD 7 = false ∧ (0x14 : Byte).getLsbD 4 = true) ∧
    (refusalOf (transact (busWord true 0x00BC 0x04) (withTwi stoppingTwi)) = some .twiBusy ∧
      stoppingTwi.phase = .stopping ∧ (0x04 : Byte).getLsbD 2 = true) ∧
    (nextOf (transact (busWord true 0x00BC 0xC0) (withTwi stoppingTwi)) ≠ none ∧ (0xC0 : Byte).getLsbD 2 = false) ∧
    (refusalOf (transact (busWord true 0x00BC 0x94) (withTwi idleTwi)) = some .twiIllegalCommand) := by decide

/-- Bytes of each command class at both ends of the ignored bits. -/
theorem witness_command_bytes :
    (0xCA : Byte) &&& 0x35 = 0x00 ∧ (0x4E : Byte) &&& 0xB5 = 0x04 ∧ (0xEE : Byte) &&& 0xB5 = 0xA4 ∧
    (0xFE : Byte) &&& 0xB5 = 0xB4 ∧ (0xDE : Byte) &&& 0xB5 = 0x94 ∧ (0xCE : Byte) &&& 0xF5 = 0xC4 ∧
    (0x8E : Byte) &&& 0xF5 = 0x84 := by decide

/-- Every phase and every status the command statements speak of is a state of the unit. -/
theorem witness_command_states :
    (base.twi.phase = .off ∧ idleTwi.phase = .idle ∧ stoppingTwi.phase = .stopping ∧
      (pendingTwi (.sla 0xD0)).phase = .pending (.sla 0xD0)) ∧
    ∀ st ∈ completionStatuses, (heldTwi st true).phase = .held ∧ statusOf (heldTwi st true) = st := by decide

/-- Every row of the admission table has a state that agrees with bus ownership; 0x00 has one of either. -/
theorem witness_AdmissionTable :
    (OwnsInv base.twi ∧ OwnsInv idleTwi ∧ OwnsInv stoppingTwi ∧ OwnsInv (pendingTwi .start)) ∧
    (OwnsInv (heldTwi 0x38 false) ∧ Held (heldTwi 0x38 false) 0x38) ∧
    (OwnsInv (heldTwi 0x00 false) ∧ Held (heldTwi 0x00 false) 0x00) := by
  refine ⟨⟨?_, ?_, ?_, ?_⟩, ⟨?_, ?_⟩, ⟨?_, ?_⟩⟩
  all_goals first | (unfold OwnsInv; decide) | (unfold Held; decide)

theorem witness_AdmissionTable_owned :
    ∀ st ∈ ([0x08, 0x10, 0x18, 0x20, 0x28, 0x30, 0x40, 0x48, 0x50, 0x58, 0x00] : List Byte),
      OwnsInv (heldTwi st true) ∧ Held (heldTwi st true) st := by
  intro st h
  simp only [List.mem_cons, List.not_mem_nil, or_false] at h
  rcases h with rfl | rfl | rfl | rfl | rfl | rfl | rfl | rfl | rfl | rfl | rfl
  all_goals exact ⟨by unfold OwnsInv; decide, by unfold Held; decide⟩

theorem witness_BusCompletion :
    ∀ op ∈ ([.start, .repStart, .stopStart, .sla 0xD0, .sla 0xD1, .tx 0x6B, .rxAck, .rxNack] : List TwiOp),
      (pendingTwi op).phase = .pending op := by decide

theorem witness_StopExecution :
    stoppingTwi.phase = .stopping ∧ TwiInv stoppingTwi ∧ stoppingTwi.en = true ∧ stoppingTwi.sto = true ∧
    (twiOf (exec (.wrTwcrDisable 0x00) (withTwi stoppingTwi))).map Twi.sto = some false := by
  unfold TwiInv; decide

/-- The invariants hold in states other than the one after reset, from which an agent steps. -/
theorem witness_invariants_are_kept :
    (let s := { withTwi (pendingTwi .stopStart) with turn := .bus }
     TwiInv s.twi ∧ OwnsInv s.twi ∧ (nextOf (step s)).isSome = true) ∧
    (let s := { withTmr (ctcTmr 2 2 false) with turn := .tclk }
     TimerInv s.tmr ∧ (nextOf (step s)).isSome = true) := by
  unfold TwiInv OwnsInv TimerInv
  exact ⟨⟨by decide, by decide, rfl⟩, ⟨by decide, rfl⟩⟩

theorem witness_TransactionsChangeOnlyTheirUnit :
    unitOf (.wrDdrb 0x20) = .gpio ∧ nextOf (exec (.wrDdrb 0x20) base) ≠ none ∧
    unitOf (.wrTcnt0 0x00) = .tmr ∧ nextOf (exec (.wrTcnt0 0x00) base) ≠ none ∧ isRead (.wrTcnt0 0x00) = false ∧
    unitOf (.wrTwcrConfig 0x04) = .twi ∧ nextOf (exec (.wrTwcrConfig 0x04) base) ≠ none ∧
    nextOf (exec .rdTwdr (withTwi idleTwi)) ≠ none ∧ idleTwi.phase = .idle := by decide

theorem witness_ReadsChangeNoRegister : isRead .rdTwdr = true ∧ isRead .rdPinb = true ∧ isRead .rdTifr0 = true := by
  decide

/-- Each flag, set or cleared by a transaction the statement names. -/
theorem witness_FlagsChangeOnlyByTheirWriters :
    ((twiOf (exec (.wrTwcrContNack 0x84) (withTwi (heldTwi 0x40 true)))).map Twi.int = some false ∧
      (heldTwi 0x40 true).int = true) ∧
    (twiOf (exec (.wrTwcrStop 0x94) (withTwi (heldTwi 0x28 true)))).map Twi.sto = some true ∧
    (stoppingTwi.en = true ∧ stoppingTwi.sto = true ∧
      (twiOf (exec (.wrTwcrDisable 0x00) (withTwi stoppingTwi))).map Twi.sto = some false) ∧
    (twiOf (exec (.wrTwdr 0x00) (withTwi idleTwi))).map Twi.wc = some true ∧
    (twiOf (exec (.wrTwdr 0x00) (withTwi { heldTwi 0x08 true with wc := true }))).map Twi.wc = some false ∧
    (tmrOf (exec (.wrTifr0 0x02) (withTmr { Tmr.reset with ocfa := true }))).map Tmr.ocfa = some false ∧
    (tmrOf (exec (.wrTifr0 0x04) (withTmr { Tmr.reset with ocfb := true }))).map Tmr.ocfb = some false ∧
    (tmrOf (exec (.wrTifr0 0x01) (withTmr { Tmr.reset with tov := true }))).map Tmr.tov = some false := by decide

/-- Two states with the same TWI unit and another timer and port, one command admitted and one refused in both. -/
theorem witness_TwiUnitIsIsolated :
    (withTmr (ctcTmr 1 1 false)).twi = (withGpio ⟨0xFF, 0x0F, 0x00⟩).twi ∧
    nextOf (exec (.wrTwcrStart 0xA4) (withTmr (ctcTmr 1 1 false))) ≠ none ∧
    refusalOf (exec (.wrTwdr 0x00) (withTmr (ctcTmr 1 1 false))) = some .twiDisabledAccess := by decide

/-- A bit operation, with the largest index and with the first refused one. -/
theorem witness_BitOperations :
    (hosting (.cons (.setb addrDdrb 7) .done)).thread.acts = [⟨[], [], [.seq (.cons (.setb addrDdrb 7) .done)], none⟩] ∧
    fetch (hosting (.cons (.tglb addrDdrb 7) .done)) = some 0x0002400 ∧
    (nextOf (hostStep (hosting (.cons (.tglb addrDdrb 7) .done)))).bind fetch = some 0x1002480 ∧
    refusalOf (hostStep (hosting (.cons (.tglb addrDdrb 8) .done))) = some .badBitIndex := by decide

/-- A statement without a word that runs, and the two refusals at their first refused value. -/
theorem witness_HostStatementsRun :
    BadIndexNext (hosting (.cons (.tstb addrDdrb 8 0) .done)) ∧
    WideAddressNext (hosting (.cons (.call .addressRead [.lit 0x80] none) .done)) ∧
    fetch (hosting (.cons (.assign .byte 0 (.add (.lit 0xFF) (.lit 2))) (.cons (.emit "x" none) .done))) = none ∧
    (nextOf (hostStep (hosting (.cons (.assign .byte 0 (.add (.lit 0xFF) (.lit 2)))
      (.cons (.emit "x" none) .done))))).map (fun s => s.thread.acts.map Activation.vars) = some [[(0, 1)]] := by
  refine ⟨⟨_, _, _, _, _, _, 8, rfl, rfl, by decide, .inr (.inr (.inr ⟨_, rfl⟩))⟩,
    ⟨_, _, _, _, _, _, _, _, rfl, rfl, .inr rfl, .inr (by decide)⟩, by decide, by decide⟩

/-- The largest address is not refused, nor is an index of 7. -/
theorem witness_HostStatementsRun_bounds :
    nextOf (hostStep (hosting (.cons (.call .addressRead [.lit 0x7F] none) .done))) ≠ none ∧
    fetch (hosting (.cons (.tstb addrDdrb 7 0) .done)) = some 0x0002400 := by decide

/-- A TSTB before a statement, before a FOREVER, and as the last of a sequence. -/
theorem witness_TestBit_followed :
    (hosting (.cons (.tstb addrTifr0 0 0) (.forever .done))).thread.acts =
      [⟨[], [], [.seq (.cons (.tstb addrTifr0 0 0) (.forever .done))], none⟩] ∧
    (hosting (.cons (.tstb addrTifr0 0 0) .done)).thread.acts =
      [⟨[], [], [.seq (.cons (.tstb addrTifr0 0 0) .done)], none⟩] := by decide

theorem witness_TestBit :
    (hosting (.cons (.tstb addrTifr0 7 0) (.cons (.emit "x" none) .done))).thread.acts =
      [⟨[], [], [.seq (.cons (.tstb addrTifr0 7 0) (.cons (.emit "x" none) .done))], none⟩] ∧
    refusalOf (hostStep (hosting (.cons (.tstb addrTifr0 8 0) (.cons (.emit "x" none) .done)))) = some .badBitIndex := by
  decide

/-- Each clause: the last statement alone, the last run of a loop, and an ended sequence while TCLK ticks. -/
theorem witness_ResultsStay :
    settleTodo [] = [] ∧ settleTodo [.seq .done] = [] ∧
    settleTodo [.loop 0 (.cons (.wr addrTifr0 (.lit 2)) .done), .seq .done] = [] ∧
    (hosting (.cons (.rd addrTcnt0 2) .done)).thread.acts = [⟨[], [], [.seq (.cons (.rd addrTcnt0 2) .done)], none⟩] ∧
    (hosting (.cons (.tstb addrTifr0 7 4) .done)).thread.acts =
      [⟨[], [], [.seq (.cons (.tstb addrTifr0 7 4) .done)], none⟩] ∧
    (hosting (.cons (.assign .count 0 (.lit 65536)) .done)).thread.acts =
      [⟨[], [], [.seq (.cons (.assign .count 0 (.lit 65536)) .done)], none⟩] ∧
    (hosting (.cons (.ret (.expr (.lit 0))) .done)).thread.acts =
      [⟨[], [], [.seq (.cons (.ret (.expr (.lit 0))) .done)], none⟩] ∧
    (nextOf (hostStep (setActs base [⟨[(0, 300)], [], [.seq (.cons (.ret (.expr (.var 0))) .done)], some (.loc 3)⟩,
      ⟨[(1, 7)], [], [.seq .done], none⟩]))).map (fun s => s.thread.acts) =
      some [⟨[(3, 44), (1, 7)], [], [], none⟩] ∧
    (let s := setActs { withTmr (ctcTmr 2 2 false) with turn := .tclk } [⟨[(0, 9)], [0x12], [], none⟩]
     s.thread.acts = [⟨[(0, 9)], [0x12], [], none⟩] ∧ hostEnabled s = false ∧ (nextOf (step s)).isSome = true) :=
  ⟨by decide, by decide, by decide, by decide, by decide, by decide, by decide, by decide, rfl, rfl, rfl⟩

/-- A poll that spins (R119): TWCR reads 0x00 after reset; and one that ends. -/
theorem witness_PollSpins :
    (hosting (.cons (.poll addrTwcr 0x80 0x80) .done)).thread.acts =
      [⟨[], [], [.seq (.cons (.poll addrTwcr 0x80 0x80) .done)], none⟩] ∧
    (nextOf (hostStep (hosting (.cons (.poll addrTwcr 0x80 0x80) .done)))).map (fun s => s.thread.acts) =
      some [⟨[], [], [.seq (.cons (.poll addrTwcr 0x80 0x80) .done)], none⟩] ∧
    (nextOf (hostStep (hosting (.cons (.poll addrTwcr 0x80 0x00) .done)))).map hostEnabled = some false := by
  decide

/-- A9, A10: the check passes on the masked byte; on a mismatch the site with a value is called. -/
theorem witness_Mismatch :
    (nextOf (hostStep { hosting (.cons (.expect addrTwsr 0xF8 0x08 .start none) .done) with
      twi := { heldTwi 0x08 true with twps := 3 } })).map hostEnabled = some false ∧
    (nextOf (hostStep { hosting (.cons (.expect addrTwsr 0xF8 0x18 .addressWrite (some (.lit 0x68))) .done) with
      twi := heldTwi 0x20 true })).map (fun s => s.thread.acts) =
      some [⟨[], [], [.seq (.cons (.call (.reportAndFault .addressWrite true) [.lit 0x68] none) .done)], none⟩] := by
  decide

/-- The fault state, entered by a call of its procedure. -/
theorem witness_FaultStateIsTerminal :
    let s := hosting (bodyEnterFaultState Config.params)
    inFaultState s.thread.acts = true ∧ (nextOf (step s)).isSome = true ∧ mover s = some .host := ⟨rfl, rfl, rfl⟩

/-- The largest address and the first refused one. -/
theorem witness_AddressByte :
    nextOf (callProc base ⟨[], [], [], none⟩ [] .addressRead [.lit 0x7F] none) ≠ none ∧
    refusalOf (callProc base ⟨[], [], [], none⟩ [] .addressRead [.lit 0x80] none) = some .addrTooWide := by decide

end Sys2Proof.Tests
end

section
/-! The scope of the agents and of the TWI unit: what a step of one agent leaves to the others (R6), and that a
transaction answers for the TWI unit from that unit alone (R3). -/

namespace Sys2Proof.Machine

/-! ## A step, by who moves -/

/-- A step in which an agent moves is that agent's own step, and the turn passes (R6). -/
theorem step_eq_next_of_mover {s t : State} {a : Agent} (h : step s = .next t) (hm : mover s = some a) :
    ∃ u, agentStep a s = .next u ∧ t = passTurn u := by
  obtain ⟨-, -, ⟨b, u, hb, hu, rfl⟩ | ⟨hn, -, -⟩⟩ := step_cases h
  · obtain rfl : a = b := Option.some.inj (hm.symm.trans hb)
    exact ⟨u, hu, rfl⟩
  · exact absurd (hm.symm.trans hn) (by simp)

/-- A step in which nobody moves only passes the turn (R7, log 1). -/
theorem step_eq_next_of_no_mover {s t : State} (h : step s = .next t) (hm : mover s = none) : t = passTurn s := by
  obtain ⟨-, -, ⟨a, u, ha, -, -⟩ | ⟨-, -, rfl⟩⟩ := step_cases h
  · exact absurd (hm.symm.trans ha) (by simp)
  · rfl

/-- PINS has no step of its own, so it is never the agent that moves (R6). -/
theorem mover_ne_pins (s : State) : mover s ≠ some .pins := by
  intro hm
  have hen : enabled .pins s = true := mover_enabled hm
  simp [enabled] at hen

/-- A host step without a word is no transaction, so it leaves the block, the marks and the counters (R121). -/
theorem hostStep_sameBlock {s t : State} (h : hostStep s = .next t) (hf : fetch s = none) : SameBlock s t := by
  obtain ⟨w, -, -, hw, -⟩ | ⟨-, hc⟩ := hostStep_cases h
  · exact absurd (hf.symm.trans hw) (by simp)
  · exact hostControl_sameBlock hc

/-- Settles O10, by the agent that moves: each clause is the frame of that agent's step. -/
theorem agentsChangeOnlyTheirOwn : Obligations.AgentsChangeOnlyTheirOwn := by
  intro s t h
  refine ⟨fun hbus => ?_, fun htclk => ?_, fun hhost hf => ?_, fun hnone => ?_, mover_ne_pins s⟩
  · obtain ⟨u, hu, rfl⟩ := step_eq_next_of_mover h hbus
    cases hu
    exact ⟨busStep_tmr s, busStep_gpio s, busStep_thread s⟩
  · obtain ⟨u, hu, rfl⟩ := step_eq_next_of_mover h htclk
    cases hu
    exact ⟨tclkStep_twi s, tclkStep_gpio s, tclkStep_thread s⟩
  · obtain ⟨u, hu, rfl⟩ := step_eq_next_of_mover h hhost
    obtain ⟨htwi, htmr, hgpio, -⟩ := hostStep_sameBlock hu hf
    exact ⟨htwi, htmr, hgpio⟩
  · obtain rfl := step_eq_next_of_no_mover h hnone
    exact ⟨rfl, rfl, rfl, rfl⟩

/-! ## Answers that agree for the TWI unit -/

/-- Two outcomes that agree for the TWI unit: next states with the same unit, or refusals by the same name. A fault
agrees with nothing, since no instruction ends in one (R274). -/
inductive SameTwiAnswer : Result → Result → Prop where
  | next {t₁ t₂ : State} (h : t₁.twi = t₂.twi) : SameTwiAnswer (.next t₁) (.next t₂)
  | refused (r : Refusal) : SameTwiAnswer (.refused r) (.refused r)

/-- Where one outcome is a next state, so is the other, with the same TWI unit. -/
theorem SameTwiAnswer.next_twi {o₁ o₂ : Result} {t₁ : State} (h : SameTwiAnswer o₁ o₂) (h₁ : o₁ = .next t₁) :
    ∃ t₂, o₂ = .next t₂ ∧ t₂.twi = t₁.twi := by
  cases h with
  | @next u₁ u₂ hu =>
    cases h₁
    exact ⟨u₂, rfl, hu.symm⟩
  | refused => cases h₁

/-- Where one outcome is a refusal, the other is the same one. -/
theorem SameTwiAnswer.refused_eq {o₁ o₂ : Result} {r : Refusal} (h : SameTwiAnswer o₁ o₂) (h₁ : o₁ = .refused r) :
    o₂ = .refused r := by
  cases h with
  | next => cases h₁
  | refused => exact h₁

/-- An outcome that agrees with another is no fault. -/
theorem SameTwiAnswer.ne_fault {o₁ o₂ : Result} {r : Fault} (h : SameTwiAnswer o₁ o₂) : o₁ ≠ .fault r := by
  cases h <;> nofun

/-- The same check before both outcomes. -/
theorem SameTwiAnswer.require {o₁ o₂ : Result} (ok : Bool) (why : Refusal) (h : SameTwiAnswer o₁ o₂) :
    SameTwiAnswer (require ok why o₁) (require ok why o₂) := by
  cases ok with
  | true => exact h
  | false => exact .refused why

/-- A timer write leaves the TWI unit, whatever timer each state ends with. -/
theorem timerWrite_sameTwiAnswer {s₁ s₂ : State} (h : s₁.twi = s₂.twi) (t₁ t₂ : Tmr) :
    SameTwiAnswer (timerWrite s₁ t₁) (timerWrite s₂ t₂) := .next h

/-- A TWI write with the same new unit, whatever the rest of the two states. -/
theorem twiWrite_sameTwiAnswer (s₁ s₂ : State) (t : Twi) : SameTwiAnswer (twiWrite s₁ t) (twiWrite s₂ t) := .next rfl

/-- The checks and the rule of a TWCR write look at nothing but its byte and the TWI unit (R187). -/
theorem twcrWrite_sameTwiAnswer {s₁ s₂ : State} (h : s₁.twi = s₂.twi) (cls : TwcrClass) (v : Byte)
    (command : Twi → Option Twi) : SameTwiAnswer (twcrWrite cls v command s₁) (twcrWrite cls v command s₂) := by
  unfold twcrWrite
  rw [h]
  refine .require _ _ (.require _ _ (.require _ _ ?_))
  cases command s₂.twi with
  | none => exact .refused _
  | some t => exact twiWrite_sameTwiAnswer s₁ s₂ t

/-- A TWDR write is refused, stored or collides by the phase and TWINT of the TWI unit (R185). -/
theorem execWrTwdr_sameTwiAnswer {s₁ s₂ : State} (h : s₁.twi = s₂.twi) (v : Byte) :
    SameTwiAnswer (execWrTwdr v s₁) (execWrTwdr v s₂) := by
  unfold execWrTwdr
  rw [h]
  exact .require _ _ (twiWrite_sameTwiAnswer s₁ s₂ _)

/-- A TWDR read leaves the TWI unit, also where the byte it gives is a draw (R184). -/
theorem execRdTwdr_sameTwiAnswer {s₁ s₂ : State} (h : s₁.twi = s₂.twi) :
    SameTwiAnswer (execRdTwdr s₁) (execRdTwdr s₂) := by
  unfold execRdTwdr
  rw [h]
  split <;> exact .next h

/-- States that agree on the TWI unit answer an instruction alike for that unit (R3). -/
theorem exec_sameTwiAnswer {s₁ s₂ : State} (h : s₁.twi = s₂.twi) (i : Instr) :
    SameTwiAnswer (exec i s₁) (exec i s₂) := by
  cases i with
  | rdPinb | wrPinb | rdDdrb | wrDdrb | rdPortb | wrPortb => exact .next h
  | rdTifr0 | rdTccr0a | rdTccr0b | rdTcnt0 | rdOcr0a | rdOcr0b | rdTimsk0 => exact .next h
  | wrTifr0 | wrTcnt0 | wrOcr0a | wrOcr0b => exact timerWrite_sameTwiAnswer h _ _
  | wrTccr0a | wrTccr0b | wrTccr0bHi | wrTimsk0 => exact .require _ _ (timerWrite_sameTwiAnswer h _ _)
  | rdTwbr | rdTwsr | rdTwcr => exact .next h
  | rdTwdr => exact execRdTwdr_sameTwiAnswer h
  | wrTwbr v => exact .next (congrArg (fun t : Twi => { t with twbr := v }) h)
  | wrTwsr v => exact .next (congrArg (fun t : Twi => { t with twps := v.extractLsb' 0 2 }) h)
  | wrTwdr v => exact execWrTwdr_sameTwiAnswer h v
  | wrTwcrDisable v => exact twcrWrite_sameTwiAnswer h .disable v fun t => some (disableUnit v t)
  | wrTwcrConfig v => exact twcrWrite_sameTwiAnswer h .config v fun t => some (configUnit v t)
  | wrTwcrStart | wrTwcrStopStart | wrTwcrStop | wrTwcrContAck | wrTwcrContNack =>
    exact twcrWrite_sameTwiAnswer h _ _ _

/-- Settles O51: the two answers agree for the TWI unit, and each clause reads off one way they can. -/
theorem twiUnitIsIsolated : Obligations.TwiUnitIsIsolated := by
  intro i s₁ s₂ h
  have hsame : SameTwiAnswer (exec i s₁) (exec i s₂) := exec_sameTwiAnswer h i
  exact ⟨fun _ => hsame.next_twi, fun _ => hsame.refused_eq, fun _ => hsame.ne_fault⟩

end Sys2Proof.Machine
end

section
/-! What a completing transaction does, once (R62, R110, R111), and what a step does to the block: the lemmas that the
invariants, the marks and the flags are read off. -/

namespace Sys2Proof.Machine

open Sys2Proof.Safety

/-! ## TWCR commands (R85, R188 to R197) -/

/-- The classes of R85, but for the bytes that are refused. -/
def admittedClasses : List TwcrClass := [.disable, .config, .start, .stop, .stopStart, .contAck, .contNack]

/-- An admitted TWCR byte sets TWSTO exactly in the classes STOP and STOP_START (R85). -/
theorem sto_of_class {v : Byte} {cls : TwcrClass} (hc : twcrClass v = cls) (hcls : cls ∈ admittedClasses) :
    v.getLsbD 4 = true ↔ cls ∈ [.stop, .stopStart] := by
  subst hc
  revert v
  decide

/-- An admitted TWCR byte other than DISABLE writes a 1 to TWINT in every class but CONFIG (R85). -/
theorem int_of_class {v : Byte} {cls : TwcrClass} (hc : twcrClass v = cls) (hcls : cls ∈ admittedClasses)
    (hdis : cls ≠ .disable) : v.getLsbD 7 = true ↔ cls ≠ .config := by
  subst hc
  revert v
  decide

/-- The ways an admitted command other than DISABLE and CONFIG leaves the unit (R192 to R197): an operation is launched, a
STOP is in progress, or the unit is idle again without the bus. -/
inductive Commanded (v : Byte) (t : Twi) : Twi → Prop where
  | launched (op : TwiOp) (hop : op = .stopStart ↔ v.getLsbD 4 = true) : Commanded v t (launch v op t)
  | stopping (hsto : v.getLsbD 4 = true) :
      Commanded v t { commandFields v t with phase := .stopping, tws := noStatus }
  | released : Commanded v t { commandFields v t with sto := false, owns := false, phase := .idle, tws := noStatus }

theorem startCommand_commanded {v : Byte} {t u : Twi} (hc : twcrClass v = .start) (h : startCommand v t = some u) :
    Commanded v t u := by
  have hsto : ¬ v.getLsbD 4 = true := by rw [sto_of_class hc (by decide)]; decide
  unfold startCommand at h
  split at h
  · cases h
    refine .launched _ (iff_of_false ?_ hsto)
    split <;> simp
  · cases h

theorem stopStartCommand_commanded {v : Byte} {t u : Twi} (hc : twcrClass v = .stopStart)
    (h : stopStartCommand v t = some u) : Commanded v t u := by
  have hsto : v.getLsbD 4 = true := (sto_of_class hc (by decide)).mpr (by decide)
  unfold stopStartCommand at h
  split at h
  · cases h
    exact .launched _ (iff_of_true rfl hsto)
  · cases h

theorem stopCommand_commanded {v : Byte} {t u : Twi} (hc : twcrClass v = .stop) (h : stopCommand v t = some u) :
    Commanded v t u := by
  have hsto : v.getLsbD 4 = true := (sto_of_class hc (by decide)).mpr (by decide)
  unfold stopCommand at h
  split at h
  · cases h
    exact .stopping hsto
  · split at h
    · cases h
      exact .released
    · cases h

theorem continueCommand_commanded {v : Byte} {t u : Twi} (hc : twcrClass v = .contAck ∨ twcrClass v = .contNack)
    (h : continueCommand v t = some u) : Commanded v t u := by
  have hsto : v.getLsbD 4 = false := by
    rw [← Bool.not_eq_true]
    obtain hc | hc := hc <;> rw [sto_of_class hc (by decide)] <;> decide
  have hlaunch : ∀ op, op ≠ TwiOp.stopStart → Commanded v t (launch v op t) := fun op hop =>
    .launched op (iff_of_false hop (by rw [hsto]; decide))
  unfold continueCommand at h
  split at h
  · cases h; exact hlaunch _ (by simp)
  split at h
  · cases h; exact hlaunch _ (by simp)
  split at h
  · cases h; exact hlaunch _ (by split <;> simp)
  split at h
  · cases h
    simp only [commandFields, hsto]
    exact .released
  · cases h

/-! ## What a completing write does to its unit -/

/-- What a completing write does to the TWI unit, by its rule (R181, R183, R185, R188 to R197). -/
inductive TwiWritten : Instr → Twi → Twi → Prop where
  | twbr (v : Byte) (t : Twi) : TwiWritten (.wrTwbr v) t { t with twbr := v }
  | twsr (v : Byte) (t : Twi) : TwiWritten (.wrTwsr v) t { t with twps := v.extractLsb' 0 2 }
  | twdr (v : Byte) (t : Twi) (hint : t.int = true) : TwiWritten (.wrTwdr v) t { t with twdr := v, wc := false }
  | collision (v : Byte) (t : Twi) (hint : t.int = false) : TwiWritten (.wrTwdr v) t { t with wc := true }
  | disable (v : Byte) (t : Twi) : TwiWritten (.wrTwcrDisable v) t (disableUnit v t)
  | config (v : Byte) (t : Twi) (hc : twcrClass v = .config) (hfree : isBusy t = false) :
      TwiWritten (.wrTwcrConfig v) t (configUnit v t)
  | command {i : Instr} {v : Byte} {t u : Twi} (hword : encode i = writeWord addrTwcr v)
      (hint : v.getLsbD 7 = true) (hsto : v.getLsbD 4 = true → i = .wrTwcrStop v ∨ i = .wrTwcrStopStart v)
      (hfree : isBusy t = false) (h : Commanded v t u) : TwiWritten i t u

/-- What a completing write does to the timer unit, by its rule (R131 to R144). -/
inductive TmrWritten : Instr → Tmr → Tmr → Prop where
  | tifr0 (v : Byte) (t : Tmr) : TmrWritten (.wrTifr0 v) t (clearTifr0 v t)
  | tccr0a (v : Byte) (t : Tmr) (hwf : (Instr.wrTccr0a v).wf = true) :
      TmrWritten (.wrTccr0a v) t { t with tccr0a := v }
  | tccr0b (v : Byte) (t : Tmr) (hwf : (Instr.wrTccr0b v).wf = true) :
      TmrWritten (.wrTccr0b v) t { t with tccr0b := v }
  | tccr0bHi (v : Byte) (t : Tmr) (hwf : (Instr.wrTccr0bHi v).wf = true) :
      TmrWritten (.wrTccr0bHi v) t { t with tccr0b := v }
  | tcnt0 (v : Byte) (t : Tmr) : TmrWritten (.wrTcnt0 v) t { t with tcnt := v, cmBlock := true }
  | ocr0a (v : Byte) (t : Tmr) : TmrWritten (.wrOcr0a v) t { t with ocra := v }
  | ocr0b (v : Byte) (t : Tmr) : TmrWritten (.wrOcr0b v) t { t with ocrb := v }
  | timsk0 (v : Byte) (t : Tmr) : TmrWritten (.wrTimsk0 v) t { t with timsk := 0x00 }

/-- Everything a completing transaction can do (R62, R110, R111): a read gives a byte, drawn or not; a write changes the
unit it addresses. -/
inductive Completes (i : Instr) (s : State) : State → Prop where
  | read (v : Byte) (hread : isRead i = true) : Completes i s (readDone s v)
  | drawnRead (v : Byte) (hdraw : i = .rdPinb ∨ i = .rdTwdr ∧ isPending s.twi = true) :
      Completes i s (readDone (advanceDraws s) v)
  | gpio (g : Gpio) (hunit : unitOf i = .gpio) (hwrite : isRead i = false) : Completes i s (setGpio s g)
  | tmr {u : Tmr} (h : TmrWritten i s.tmr u) : Completes i s (writeDone (setTmr s u))
  | twi {u : Twi} (h : TwiWritten i s.twi u) : Completes i s (writeDone (setTwi s u))

/-- A write word is no read (R80). -/
theorem isRead_of_writeWord {i : Instr} {a : Addr} {v : Byte} (h : encode i = writeWord a v) : isRead i = false := by
  simp [isRead, h, writeWord]

/-- The same check in front of a timer write. -/
theorem timerWrite_completes {i : Instr} {s t : State} {u : Tmr} {ok : Bool} {why : Refusal}
    (h : require ok why (timerWrite s u) = .next t) (hu : ok = true → TmrWritten i s.tmr u) : Completes i s t := by
  obtain ⟨hok, h⟩ := require_eq_next h
  cases h
  exact .tmr (hu hok)

/-- A TWDR write stores where TWINT = 1 and collides where it is 0 (R185). -/
theorem execWrTwdr_completes {v : Byte} {s t : State} (h : execWrTwdr v s = .next t) : Completes (.wrTwdr v) s t := by
  obtain ⟨-, h⟩ := require_eq_next h
  cases h
  refine .twi ?_
  split
  · next hint => exact .twdr v s.twi hint
  · next hint => exact .collision v s.twi (by simpa using hint)

/-- A TWDR read draws its byte while an operation is pending (R184). -/
theorem execRdTwdr_completes {s t : State} (h : execRdTwdr s = .next t) : Completes .rdTwdr s t := by
  unfold execRdTwdr at h
  split at h
  · cases h
    exact .drawnRead _ (.inr ⟨rfl, by assumption⟩)
  · cases h
    exact .read _ rfl

/-- DISABLE is admitted in every phase (R189). -/
theorem execWrTwcrDisable_completes {v : Byte} {s t : State} (h : execWrTwcrDisable v s = .next t) :
    Completes (.wrTwcrDisable v) s t := by
  obtain ⟨-, -, u, hu, rfl⟩ := twcrWrite_eq_next h
  cases hu
  exact .twi (.disable v s.twi)

/-- CONFIG is admitted where no operation and no STOP is in progress (R190). -/
theorem execWrTwcrConfig_completes {v : Byte} {s t : State} (h : execWrTwcrConfig v s = .next t) :
    Completes (.wrTwcrConfig v) s t := by
  obtain ⟨hc, hb, u, hu, rfl⟩ := twcrWrite_eq_next h
  cases hu
  exact .twi (.config v s.twi hc (hb.resolve_right (by decide)))

/-- A command of a class other than DISABLE and CONFIG, by what its rule says of an admitted one. -/
theorem twcrWrite_completes {i : Instr} {cls : TwcrClass} {v : Byte} {f : Twi → Option Twi} {s t : State}
    (h : twcrWrite cls v f s = .next t) (hcls : cls ∈ admittedClasses) (hne : cls ≠ .disable ∧ cls ≠ .config)
    (hword : encode i = writeWord addrTwcr v)
    (hsto : cls ∈ [.stop, .stopStart] → i = .wrTwcrStop v ∨ i = .wrTwcrStopStart v)
    (hf : ∀ u, twcrClass v = cls → f s.twi = some u → Commanded v s.twi u) : Completes i s t := by
  obtain ⟨hc, hb, u, hu, rfl⟩ := twcrWrite_eq_next h
  obtain ⟨hdis, hcfg⟩ := hne
  have hint : v.getLsbD 7 = true := (int_of_class hc hcls hdis).mpr hcfg
  exact .twi (.command hword hint (hsto ∘ (sto_of_class hc hcls).mp) (hb.resolve_right hdis) (hf u hc hu))

/-- A transaction that answers a next state does what its register's rule says (R112). -/
theorem exec_completes {i : Instr} {s t : State} (h : exec i s = .next t) : Completes i s t := by
  cases i with
  | rdPinb => cases h; exact .drawnRead _ (.inl rfl)
  | wrPinb | wrDdrb | wrPortb => cases h; exact .gpio _ rfl (isRead_of_writeWord rfl)
  | rdDdrb | rdPortb | rdTifr0 | rdTccr0a | rdTccr0b | rdTcnt0 | rdOcr0a | rdOcr0b | rdTimsk0 | rdTwbr | rdTwsr
  | rdTwcr => cases h; exact .read _ rfl
  | wrTifr0 v => cases h; exact .tmr (.tifr0 v s.tmr)
  | wrTcnt0 v => cases h; exact .tmr (.tcnt0 v s.tmr)
  | wrOcr0a v => cases h; exact .tmr (.ocr0a v s.tmr)
  | wrOcr0b v => cases h; exact .tmr (.ocr0b v s.tmr)
  | wrTccr0a v => exact timerWrite_completes h (.tccr0a v s.tmr)
  | wrTccr0b v => exact timerWrite_completes h (.tccr0b v s.tmr)
  | wrTccr0bHi v => exact timerWrite_completes h (.tccr0bHi v s.tmr)
  | wrTimsk0 v => exact timerWrite_completes h fun _ => .timsk0 v s.tmr
  | wrTwbr v => cases h; exact .twi (.twbr v s.twi)
  | wrTwsr v => cases h; exact .twi (.twsr v s.twi)
  | rdTwdr => exact execRdTwdr_completes h
  | wrTwdr v => exact execWrTwdr_completes h
  | wrTwcrDisable v => exact execWrTwcrDisable_completes h
  | wrTwcrConfig v => exact execWrTwcrConfig_completes h
  | wrTwcrStart v =>
    exact twcrWrite_completes h (by decide) (by decide) rfl (absurd · (by decide)) fun _ => startCommand_commanded
  | wrTwcrStopStart v =>
    exact twcrWrite_completes h (by decide) (by decide) rfl (fun _ => .inr rfl) fun _ => stopStartCommand_commanded
  | wrTwcrStop v =>
    exact twcrWrite_completes h (by decide) (by decide) rfl (fun _ => .inl rfl) fun _ => stopCommand_commanded
  | wrTwcrContAck v =>
    exact twcrWrite_completes h (by decide) (by decide) rfl (absurd · (by decide)) fun _ hc =>
      continueCommand_commanded (.inl hc)
  | wrTwcrContNack v =>
    exact twcrWrite_completes h (by decide) (by decide) rfl (absurd · (by decide)) fun _ hc =>
      continueCommand_commanded (.inr hc)

/-! ## What a transaction leaves unchanged -/

/-- No completing transaction touches a mark (R44). -/
theorem Completes.marks {i : Instr} {s t : State} (h : Completes i s t) :
    t.faulted = s.faulted ∧ t.refused = s.refused := by
  cases h <;> exact ⟨rfl, rfl⟩

/-- The TWI unit after a completing transaction: as it was, or as a write to it leaves it (R62). -/
theorem Completes.twi_cases {i : Instr} {s t : State} (h : Completes i s t) :
    t.twi = s.twi ∨ TwiWritten i s.twi t.twi := by
  cases h with
  | read | drawnRead | gpio | tmr => exact .inl rfl
  | twi hu => exact .inr hu

/-- The timer unit after a completing transaction: as it was, or as a write to it leaves it (R62). -/
theorem Completes.tmr_cases {i : Instr} {s t : State} (h : Completes i s t) :
    t.tmr = s.tmr ∨ TmrWritten i s.tmr t.tmr := by
  cases h with
  | read | drawnRead | gpio | twi => exact .inl rfl
  | tmr hu => exact .inr hu

/-! ## What a step does to the block -/

/-- A step of the HOST agent: the block as it was, or as a completing transaction leaves it (R112). -/
theorem hostStep_block {s u : State} (h : hostStep s = .next u) :
    SameBlock s u ∨ ∃ i v, Completes i s v ∧ SameBlock v u := by
  obtain ⟨-, i, v, -, -, hv, rfl⟩ | ⟨-, hc⟩ := hostStep_cases h
  · exact .inr ⟨i, v, exec_completes hv, afterBus_sameBlock v⟩
  · exact .inl (hostControl_sameBlock hc)

/-- Everything a step can do to the block, before the turn passes: nothing, a completing transaction, the BUS step or a
tick (R6). -/
theorem step_block {s t : State} (h : step s = .next t) :
    ∃ u, t = passTurn u ∧
      (SameBlock s u ∨ (∃ i v, Completes i s v ∧ SameBlock v u) ∨ u = busStep s ∨ u = tclkStep s) := by
  obtain ⟨-, -, ⟨a, u, -, hu, rfl⟩ | ⟨-, -, rfl⟩⟩ := step_cases h
  · refine ⟨u, rfl, ?_⟩
    cases a with
    | host => exact (hostStep_block hu).imp_right .inl
    | bus => cases hu; exact .inr (.inr (.inl rfl))
    | tclk => cases hu; exact .inr (.inr (.inr rfl))
    | pins => cases hu; exact .inl (.refl s)
  · exact ⟨s, rfl, .inl (.refl s)⟩

end Sys2Proof.Machine
end

section
/-! The invariants of the units (R25, R30, R32, R33, R36), each kept by every write to its unit and by the step of its
agent, and so by every step of the machine. -/

namespace Sys2Proof.Machine

open Sys2Proof.Safety

/-! ## The status of a completion -/

/-- The status a completion reports is an outcome of its operation (R210, R211). -/
theorem chosenStatus_mem (op : TwiOp) (index : Nat) : chosenStatus op index ∈ statusOutcomes op := by
  have hlen : index % (statusOutcomes op).length < (statusOutcomes op).length :=
    Nat.mod_lt _ (by simp [statusOutcomes])
  rw [chosenStatus, List.getD_eq_getElem _ _ hlen]
  exact List.getElem_mem hlen

/-- The outcomes of every operation are among the statuses of R213. -/
theorem statusOutcomes_subset (op : TwiOp) : statusOutcomes op ⊆ completionStatuses := by
  cases op with
  | sla b =>
    cases hb : b.getLsbD 0 <;> simp only [statusOutcomes, successStatus, nackStatus, hb] <;> decide
  | start | repStart | stopStart | tx | rxAck | rxNack =>
    simp only [statusOutcomes, successStatus, nackStatus]; decide

/-- A completion leaves in TWSR the status it reports (R12, R213). -/
theorem statusOf_complete {op : TwiOp} {st : Byte} (hst : st ∈ statusOutcomes op) (b : Byte) (t : Twi) :
    statusOf (complete op st b t) = st := by
  have hfield : ∀ st ∈ completionStatuses, statusField st ++ (0 : BitVec 3) = st := by decide
  exact hfield st (statusOutcomes_subset op hst)

/-! ## An invariant of one unit -/

/-- What a write to the TWI unit, a completion and an executed STOP keep, every step keeps (R6). -/
theorem step_keeps_twi {P : Twi → Prop} (hwrite : ∀ {i t u}, TwiWritten i t u → P t → P u)
    (hcomplete : ∀ {op st t} (b : Byte), t.phase = .pending op → st ∈ statusOutcomes op → P t → P (complete op st b t))
    (hstop : ∀ {t}, t.phase = .stopping → P t → P (stopExecuted t))
    {s t : State} (hs : P s.twi) (h : step s = .next t) : P t.twi := by
  obtain ⟨u, rfl, hsame | ⟨i, v, hv, hsame⟩ | rfl | rfl⟩ := step_block h
  · obtain ⟨hu, -⟩ := hsame
    rw [passTurn_twi, hu]
    exact hs
  · obtain ⟨hu, -⟩ := hsame
    rw [passTurn_twi, hu]
    obtain hv | hv := hv.twi_cases
    · rwa [hv]
    · exact hwrite hv hs
  · rw [passTurn_twi]
    obtain ⟨op, hp, hu⟩ | ⟨hp, hu⟩ | ⟨-, hu⟩ := busStep_cases s
    · rw [hu]
      exact hcomplete _ hp (chosenStatus_mem op _) hs
    · rw [hu]
      exact hstop hp hs
    · rwa [hu]
  · exact hs

/-- What a write to the timer unit and a tick keep, every step keeps (R6). -/
theorem step_keeps_tmr {P : Tmr → Prop} (hwrite : ∀ {i t u}, TmrWritten i t u → P t → P u)
    (htick : ∀ {t} (d : Bool), P t → P (tick d t)) {s t : State} (hs : P s.tmr) (h : step s = .next t) : P t.tmr := by
  obtain ⟨u, rfl, hsame | ⟨i, v, hv, hsame⟩ | rfl | rfl⟩ := step_block h
  · obtain ⟨-, hu, -⟩ := hsame
    rw [passTurn_tmr, hu]
    exact hs
  · obtain ⟨-, hu, -⟩ := hsame
    rw [passTurn_tmr, hu]
    obtain hv | hv := hv.tmr_cases
    · rwa [hv]
    · exact hwrite hv hs
  · rw [passTurn_tmr, busStep_tmr]
    exact hs
  · exact htick _ hs

/-! ## The invariant of the TWI unit (R30) -/

/-- An admitted command that is no CONFIG writes a 1 to TWINT, so it leaves the unit waiting for BUS or idle, TWSTO set
only where a STOP is part of what is launched (R192 to R197). -/
theorem Commanded.keeps_twiInv {v : Byte} {t u : Twi} (h : Commanded v t u) (hint : v.getLsbD 7 = true) :
    TwiInv u := by
  cases h with
  | launched op hop => simp [TwiInv, launch, commandFields, noStatus, hop, hint, -BitVec.getLsbD_eq_getElem]
  | stopping hsto => simp [TwiInv, commandFields, noStatus, hsto, hint, -BitVec.getLsbD_eq_getElem]
  | released => simp [TwiInv, commandFields, noStatus, hint, -BitVec.getLsbD_eq_getElem]

/-- CONFIG enables a disabled unit and leaves the phase of an enabled one, which is Idle or Held (R190). -/
theorem configUnit_keeps_twiInv {v : Byte} {t : Twi} (hc : twcrClass v = .config) (hfree : isBusy t = false)
    (h : TwiInv t) : TwiInv (configUnit v t) := by
  obtain ⟨hoff, hheld, -, hstatus, -, hdisabled⟩ := h
  have hint : v.getLsbD 7 = false := by
    rw [← Bool.not_eq_true, int_of_class hc (by decide) (by decide)]; decide
  have hsto : v.getLsbD 4 = false := by
    rw [← Bool.not_eq_true, sto_of_class hc (by decide)]; decide
  cases hp : t.phase with
  | off =>
    have hen : t.en = false := hoff.mp hp
    simp [TwiInv, configUnit, commandFields, hp, hsto, hdisabled hen, hstatus, -BitVec.getLsbD_eq_getElem]
  | idle =>
    have hen : t.en = true := by simpa [hp] using hoff
    have hclear : t.int = false := by simpa [hp] using hheld hen
    simp [TwiInv, configUnit, commandFields, hp, hsto, hclear, hstatus, -BitVec.getLsbD_eq_getElem]
  | held =>
    have hen : t.en = true := by simpa [hp] using hoff
    have hset : t.int = true := (hheld hen).mp hp
    simp [TwiInv, configUnit, commandFields, hp, hsto, hset, hint, -BitVec.getLsbD_eq_getElem]
  | pending op => simp [isBusy, isPending, hp] at hfree
  | stopping => simp [isBusy, hp] at hfree

/-- Every write to the TWI unit keeps its invariant. -/
theorem TwiWritten.keeps_twiInv {i : Instr} {t u : Twi} (hw : TwiWritten i t u) (h : TwiInv t) : TwiInv u := by
  cases hw with
  | twbr | twsr | twdr | collision => exact h
  | disable v => simp [TwiInv, disableUnit, noStatus]
  | config v _ hc hfree => exact configUnit_keeps_twiInv hc hfree h
  | command _ hint _ _ hu => exact hu.keeps_twiInv hint

/-- A completion holds the unit with TWINT set, and ends the STOP of a STOP_START (R210, R212). -/
theorem complete_keeps_twiInv {op : TwiOp} {st : Byte} {t : Twi} (b : Byte) (hp : t.phase = .pending op)
    (h : TwiInv t) : TwiInv (complete op st b t) := by
  obtain ⟨hoff, -, hstop, -, hie, -⟩ := h
  have hen : t.en = true := by simpa [hp] using hoff
  have hstart : op = .stopStart ↔ t.sto = true := by simpa [hp] using hstop hen
  have hsto : (t.sto && op != .stopStart) = false := by simpa using hstart.mpr
  simp [TwiInv, complete, hen, hie, hsto]

/-- An executed STOP leaves the unit idle with TWSTO clear (R212). -/
theorem stopExecuted_keeps_twiInv {t : Twi} (hp : t.phase = .stopping) (h : TwiInv t) : TwiInv (stopExecuted t) := by
  obtain ⟨hoff, hheld, -, hstatus, hie, -⟩ := h
  have hen : t.en = true := by simpa [hp] using hoff
  have hint : t.int = false := by simpa [hp] using hheld hen
  simp [TwiInv, stopExecuted, hen, hint, hie, hstatus, hp]

/-- Settles O44: writes, completions and executed STOPs keep the invariant, and nothing else touches the unit. -/
theorem twiInvariantIsKept : Obligations.TwiInvariantIsKept := fun _ _ =>
  step_keeps_twi TwiWritten.keeps_twiInv (fun b hp _ => complete_keeps_twiInv b hp) stopExecuted_keeps_twiInv

/-! ## Ownership of the bus (R25) -/

/-- While BUS has to move, ownership and status are bound by nothing. -/
theorem ownsInv_of_busy {t : Twi} (h : isBusy t = true) : OwnsInv t := by
  have hfree : t.phase ≠ .off ∧ t.phase ≠ .idle ∧ t.phase ≠ .held := by
    obtain ⟨op, hp⟩ | hp := (isBusy_iff t).mp h <;> simp [hp]
  simp [OwnsInv, hfree]

/-- A unit that is off or idle meets the invariant as soon as it does not own the bus. -/
theorem ownsInv_of_released {t : Twi} (hp : t.phase = .off ∨ t.phase = .idle) (ho : t.owns = false) : OwnsInv t := by
  obtain hp | hp := hp <;> simp [OwnsInv, hp, ho]

/-- An admitted command that is no CONFIG leaves the unit busy or without the bus (R192 to R197). -/
theorem Commanded.ownsInv {v : Byte} {t u : Twi} (h : Commanded v t u) : OwnsInv u := by
  cases h with
  | launched op => exact ownsInv_of_busy rfl
  | stopping => exact ownsInv_of_busy rfl
  | released => exact ownsInv_of_released (.inr rfl) rfl

/-- CONFIG leaves the status and the ownership, and the phase but that Off becomes Idle (R190). -/
theorem configUnit_keeps_ownsInv (v : Byte) {t : Twi} (h : OwnsInv t) : OwnsInv (configUnit v t) := by
  by_cases hp : t.phase = .off
  · obtain ⟨hreleased, -⟩ := h
    exact ownsInv_of_released (.inr (if_pos hp)) (hreleased (.inl hp))
  · have hphase : (configUnit v t).phase = t.phase := if_neg hp
    rw [OwnsInv, hphase]
    exact h

/-- Every write to the TWI unit keeps ownership in agreement. -/
theorem TwiWritten.keeps_ownsInv {i : Instr} {t u : Twi} (hw : TwiWritten i t u) (h : OwnsInv t) : OwnsInv u := by
  cases hw with
  | twbr | twsr | twdr | collision => exact h
  | disable v => exact ownsInv_of_released (.inl rfl) rfl
  | config v => exact configUnit_keeps_ownsInv v h
  | command _ _ _ _ hu => exact hu.ownsInv

/-- A completion reports a status of R213 and sets the ownership that goes with it (R215). -/
theorem complete_ownsInv {op : TwiOp} {st : Byte} {t : Twi} (b : Byte) (hst : st ∈ statusOutcomes op) :
    OwnsInv (complete op st b t) := by
  have howns : (complete op st b t).owns = completedOwns st t := rfl
  have hphase : (complete op st b t).phase = .held := rfl
  rw [OwnsInv, statusOf_complete hst, howns, hphase]
  refine ⟨by simp, fun _ => statusOutcomes_subset op hst, fun _ h38 => ?_, fun _ h38 h00 => ?_⟩
  · simp [completedOwns, h38]
  · simp only [completedOwns, beq_iff_eq, h38, h00, if_false]

/-- Settles O45: writes, completions and executed STOPs keep the agreement, and nothing else touches the unit. -/
theorem ownershipInvariantIsKept : Obligations.OwnershipInvariantIsKept := fun _ _ =>
  step_keeps_twi TwiWritten.keeps_ownsInv (fun b _ hst _ => complete_ownsInv b hst)
    fun _ _ => ownsInv_of_released (.inr rfl) rfl

/-! ## The timer's control registers (R32, R33, R36) -/

/-- The bytes a timer control write admits (R131, R133). -/
theorem tccr0a_admitted : ∀ v : Byte, (Instr.wrTccr0a v).wf = true → v = 0x00 ∨ v = 0x02 := by decide
theorem tccr0b_admitted : ∀ v : Byte, (Instr.wrTccr0b v).wf = true → v ≤ 0x05 := by decide
theorem tccr0bHi_admitted : ∀ v : Byte, (Instr.wrTccr0bHi v).wf = true → v ≤ 0x05 := by decide

/-- Every write to the timer unit keeps its control registers admitted. -/
theorem TmrWritten.keeps_timerInv {i : Instr} {t u : Tmr} (hw : TmrWritten i t u) (h : TimerInv t) : TimerInv u := by
  obtain ⟨ha, hb, hmask⟩ := h
  cases hw with
  | tifr0 | tcnt0 | ocr0a | ocr0b => exact ⟨ha, hb, hmask⟩
  | tccr0a v _ hwf => exact ⟨tccr0a_admitted v hwf, hb, hmask⟩
  | tccr0b v _ hwf => exact ⟨ha, tccr0b_admitted v hwf, hmask⟩
  | tccr0bHi v _ hwf => exact ⟨ha, tccr0bHi_admitted v hwf, hmask⟩
  | timsk0 => exact ⟨ha, hb, rfl⟩

/-- Settles O46: the checks of the timer's writes, and that a tick leaves the control registers. -/
theorem timerModeInvariantIsKept : Obligations.TimerModeInvariantIsKept := fun _ _ =>
  step_keeps_tmr TmrWritten.keeps_timerInv fun _ h => h

end Sys2Proof.Machine
end

section
/-! The marks of an ended run (R44), the flags by their writers (R42), and the locals of an ended sequence (R43). -/

namespace Sys2Proof.Machine

open Sys2Proof.Safety

/-! ## The marks (R44, R270, R271) -/

/-- A step that answers a next state changes no mark. -/
theorem step_marks {s t : State} (h : step s = .next t) : t.faulted = s.faulted ∧ t.refused = s.refused := by
  obtain ⟨u, rfl, hsame | ⟨i, v, hv, hsame⟩ | rfl | rfl⟩ := step_block h
  · obtain ⟨-, -, -, hf, hr, -⟩ := hsame
    exact ⟨hf, hr⟩
  · obtain ⟨-, -, -, hf, hr, -⟩ := hsame
    obtain ⟨hvf, hvr⟩ := hv.marks
    exact ⟨hf.trans hvf, hr.trans hvr⟩
  · exact ⟨busStep_faulted s, busStep_refused s⟩
  · exact ⟨tclkStep_faulted s, tclkStep_refused s⟩

/-- No agent takes a step from a marked state. -/
theorem step_of_marked {s : State} (h : s.faulted = true ∨ s.refused = true) : step s = .fault .runEnded := by
  have hmark : (s.faulted || s.refused) = true := by simpa using h
  exact if_pos hmark

/-- Settles O9: endState sets the mark, and a marked state has no step. -/
theorem faultsAndRefusalsEndTheRun : Obligations.FaultsAndRefusalsEndTheRun := by
  intro s
  refine ⟨fun h => ?_, fun r h => ?_, fun t => step_marks, rfl, rfl⟩
  · rw [h, endState_unmapped]
    exact ⟨rfl, step_of_marked (.inl rfl)⟩
  · rw [h, endState_refused]
    exact ⟨rfl, step_of_marked (.inr rfl)⟩

/-! ## The flags of the TWI unit (R42) -/

/-- The fields of R188 after an admitted command: TWINT is cleared where a 1 is written, TWSTO is at most the bit
written, TWWC stays. -/
theorem Commanded.flags {v : Byte} {t u : Twi} (h : Commanded v t u) :
    u.int = (t.int && !v.getLsbD 7) ∧ (u.sto = true → v.getLsbD 4 = true) ∧ u.wc = t.wc := by
  cases h with
  | launched | stopping => exact ⟨rfl, id, rfl⟩
  | released => exact ⟨rfl, nofun, rfl⟩

/-- On an enabled unit that meets the invariant TWSTO = 1 says that BUS has to move (R30). -/
theorem isBusy_of_sto {t : Twi} (h : TwiInv t) (hen : t.en = true) (hsto : t.sto = true) : isBusy t = true := by
  obtain ⟨-, -, hstop, -⟩ := h
  rw [isBusy_iff]
  exact ((hstop hen).mpr hsto).elim .inr fun hp => .inl ⟨_, hp⟩

/-- No write sets TWINT. -/
theorem TwiWritten.int_le {i : Instr} {t u : Twi} (hw : TwiWritten i t u) (h : u.int = true) : t.int = true := by
  cases hw with
  | twbr | twsr | twdr | collision => exact h
  | disable => cases h
  | config => exact (Bool.and_eq_true_iff.mp h).1
  | command _ _ _ _ hu =>
    obtain ⟨hint, -, -⟩ := hu.flags
    exact (Bool.and_eq_true_iff.mp (hint ▸ h)).1

/-- TWINT is cleared by DISABLE, or by a TWCR write of a 1 to it. -/
theorem TwiWritten.int_cleared {i : Instr} {t u : Twi} (hw : TwiWritten i t u) (ht : t.int = true)
    (hu : u.int = false) :
    (∃ v, i = .wrTwcrDisable v) ∨ ∃ v : Byte, v.getLsbD 7 = true ∧ encode i = writeWord addrTwcr v := by
  cases hw with
  | twbr | twsr | twdr | collision => exact absurd (ht.symm.trans hu) (by decide)
  | disable v => exact .inl ⟨v, rfl⟩
  | config v =>
    have hint : (t.int && !v.getLsbD 7) = false := hu
    exact .inr ⟨v, by simpa [ht] using hint, rfl⟩
  | command hword hint => exact .inr ⟨_, hint, hword⟩

/-- TWSTO is set by STOP and STOP_START. -/
theorem TwiWritten.sto_set {i : Instr} {t u : Twi} (hw : TwiWritten i t u) (ht : t.sto = false) (hu : u.sto = true) :
    ∃ v, i = .wrTwcrStop v ∨ i = .wrTwcrStopStart v := by
  cases hw with
  | twbr | twsr | twdr | collision => exact absurd (ht.symm.trans hu) (by decide)
  | disable => cases hu
  | config v _ hc =>
    have hclass := (sto_of_class hc (by decide)).mp hu
    exact absurd hclass (by decide)
  | command _ _ hsto _ h =>
    obtain ⟨-, hbit, -⟩ := h.flags
    exact ⟨_, hsto (hbit hu)⟩

/-- TWSTO is cleared by TWCR writes, and by no other than DISABLE while BUS has to move. -/
theorem TwiWritten.sto_cleared {i : Instr} {t u : Twi} (hw : TwiWritten i t u) (ht : t.sto = true)
    (hu : u.sto = false) :
    (∃ v : Byte, encode i = writeWord addrTwcr v) ∧ (isBusy t = true → ∃ v, i = .wrTwcrDisable v) := by
  cases hw with
  | twbr | twsr | twdr | collision => exact absurd (ht.symm.trans hu) (by decide)
  | disable v => exact ⟨⟨v, rfl⟩, fun _ => ⟨v, rfl⟩⟩
  | config v _ _ hfree => exact ⟨⟨v, rfl⟩, fun hb => absurd (hb.symm.trans hfree) (by decide)⟩
  | command hword _ _ hfree => exact ⟨⟨_, hword⟩, fun hb => absurd (hb.symm.trans hfree) (by decide)⟩

/-- TWWC is set by a TWDR write that collides (R185). -/
theorem TwiWritten.wc_set {i : Instr} {t u : Twi} (hw : TwiWritten i t u) (ht : t.wc = false) (hu : u.wc = true) :
    t.int = false ∧ ∃ v, i = .wrTwdr v := by
  cases hw with
  | twbr | twsr | config => exact absurd (ht.symm.trans hu) (by decide)
  | twdr | disable => cases hu
  | collision v _ hint => exact ⟨hint, v, rfl⟩
  | command _ _ _ _ h =>
    obtain ⟨-, -, hwc⟩ := h.flags
    exact absurd (ht.symm.trans (hwc ▸ hu)) (by decide)

/-- TWWC is cleared by a TWDR write that stores and by DISABLE (R185, R189). -/
theorem TwiWritten.wc_cleared {i : Instr} {t u : Twi} (hw : TwiWritten i t u) (ht : t.wc = true) (hu : u.wc = false) :
    (t.int = true ∧ ∃ v, i = .wrTwdr v) ∨ ∃ v, i = .wrTwcrDisable v := by
  cases hw with
  | twbr | twsr | config => exact absurd (ht.symm.trans hu) (by decide)
  | twdr v _ hint => exact .inl ⟨hint, v, rfl⟩
  | collision => cases hu
  | disable v => exact .inr ⟨v, rfl⟩
  | command _ _ _ _ h =>
    obtain ⟨-, -, hwc⟩ := h.flags
    exact absurd (ht.symm.trans (hwc ▸ hu)) (by decide)

/-! ## The flags of the timer unit (R42) -/

/-- What a transaction does to the timer flag at bit `k` of TIFR0, from `b` to `c`: nothing, or a TIFR0 write clears it
where its byte has that bit (R142). -/
def ClearedByTifr0 (i : Instr) (k : Nat) (b c : Bool) : Prop :=
  c = b ∨ ∃ v, i = .wrTifr0 v ∧ c = (b && !v.getLsbD k)

theorem ClearedByTifr0.not_set {i : Instr} {k : Nat} {b c : Bool} (h : ClearedByTifr0 i k b c) (hc : c = true) :
    b = true := by
  obtain rfl | ⟨v, -, rfl⟩ := h
  · exact hc
  · exact (Bool.and_eq_true_iff.mp hc).1

theorem ClearedByTifr0.cleared {i : Instr} {k : Nat} {b c : Bool} (h : ClearedByTifr0 i k b c) (hb : b = true)
    (hc : c = false) : ∃ v, i = .wrTifr0 v ∧ v.getLsbD k = true := by
  obtain rfl | ⟨v, hi, rfl⟩ := h
  · exact absurd (hb.symm.trans hc) (by decide)
  · exact ⟨v, hi, by simpa [hb] using hc⟩

/-- Only a TIFR0 write touches the timer flags, and it clears those its byte names (R142). -/
theorem TmrWritten.flags {i : Instr} {t u : Tmr} (hw : TmrWritten i t u) :
    ClearedByTifr0 i 1 t.ocfa u.ocfa ∧ ClearedByTifr0 i 2 t.ocfb u.ocfb ∧ ClearedByTifr0 i 0 t.tov u.tov := by
  cases hw with
  | tifr0 v => exact ⟨.inr ⟨v, rfl, rfl⟩, .inr ⟨v, rfl, rfl⟩, .inr ⟨v, rfl, rfl⟩⟩
  | tccr0a | tccr0b | tccr0bHi | tcnt0 | ocr0a | ocr0b | timsk0 => exact ⟨.inl rfl, .inl rfl, .inl rfl⟩

/-- The timer flags after a completing transaction. -/
theorem Completes.tmr_flags {i : Instr} {s t : State} (h : Completes i s t) :
    ClearedByTifr0 i 1 s.tmr.ocfa t.tmr.ocfa ∧ ClearedByTifr0 i 2 s.tmr.ocfb t.tmr.ocfb ∧
      ClearedByTifr0 i 0 s.tmr.tov t.tmr.tov := by
  obtain hsame | hw := h.tmr_cases
  · rw [hsame]
    exact ⟨.inl rfl, .inl rfl, .inl rfl⟩
  · exact hw.flags

/-- A TWI flag that a completing transaction changed was changed by a write to that unit. -/
theorem Completes.twi_written_of_flag {i : Instr} {s t : State} (h : Completes i s t) (flag : Twi → Bool) {b : Bool}
    (hs : flag s.twi = b) (ht : flag t.twi = !b) : TwiWritten i s.twi t.twi := by
  refine h.twi_cases.resolve_left fun hsame => ?_
  rw [hsame, hs] at ht
  exact absurd ht (by simp)

/-- Settles O50, flag by flag: what changed was written, and a write changes a flag by its register's rule only. -/
theorem flagsChangeOnlyByTheirWriters : Obligations.FlagsChangeOnlyByTheirWriters := by
  intro i s t h
  have hc : Completes i s t := exec_completes h
  obtain ⟨hocfa, hocfb, htov⟩ := hc.tmr_flags
  refine ⟨fun ht => ?_, fun hs ht => ?_, fun hs ht => ?_, fun hs ht => ?_, fun hinv hen hs ht => ?_,
    fun hs ht => ?_, fun hs ht => ?_, hocfa.not_set, hocfb.not_set, htov.not_set, hocfa.cleared, hocfb.cleared,
    htov.cleared⟩
  · obtain hsame | hw := hc.twi_cases
    · rwa [← hsame]
    · exact hw.int_le ht
  · exact (hc.twi_written_of_flag Twi.int hs ht).int_cleared hs ht
  · exact (hc.twi_written_of_flag Twi.sto hs ht).sto_set hs ht
  · obtain ⟨hword, -⟩ := (hc.twi_written_of_flag Twi.sto hs ht).sto_cleared hs ht
    exact hword
  · obtain ⟨-, hdisable⟩ := (hc.twi_written_of_flag Twi.sto hs ht).sto_cleared hs ht
    exact hdisable (isBusy_of_sto hinv hen hs)
  · exact (hc.twi_written_of_flag Twi.wc hs ht).wc_set hs ht
  · exact (hc.twi_written_of_flag Twi.wc hs ht).wc_cleared hs ht

/-! ## The locals of an ended sequence (R43, R303) -/

/-- Binding a local leaves every other one. -/
theorem lookup_bindLocal_of_ne (vars : List (Local × Nat)) {x y : Local} (n : Nat) (h : y ≠ x) :
    lookup (bindLocal vars x n) y = lookup vars y := by
  have hfilter : lookup (vars.filter fun p => p.1 != x) y = lookup vars y := by
    induction vars with
    | nil => rfl
    | cons p rest ih =>
      obtain ⟨z, m⟩ := p
      by_cases hz : z = x
      · subst hz
        simpa [lookup, Ne.symm h] using ih
      · simp [lookup, hz, ih]
  simpa [bindLocal, lookup, Ne.symm h] using hfilter

/-- The bound local holds its value, and every other one what it held. -/
theorem lookup_bound (vars : List (Local × Nat)) (x : Local) (n : Nat) :
    lookup (bindLocal vars x n) x = some n ∧ ∀ y, y ≠ x → lookup (bindLocal vars x n) y = lookup vars y :=
  ⟨lookup_bindLocal vars x n, fun _ => lookup_bindLocal_of_ne vars n⟩

/-- A host with one activation and nothing left of its text has ended. -/
theorem endedWith_of_acts {s : State} {vars : List (Local × Nat)} {buf : List Byte} {dst : Option Dest}
    (h : s.thread.acts = [⟨vars, buf, [], dst⟩]) : EndedWith s vars buf :=
  ⟨⟨dst, h⟩, by simp [hostEnabled, h]⟩

/-- The outermost sequence, gone on with where nothing is left of it, has ended with its locals (R303). -/
theorem endedWith_continueWith {todo : List Todo} (h : settleTodo todo = []) (s : State) (vars : List (Local × Nat))
    (buf : List Byte) (dst : Option Dest) : EndedWith (continueWith s [⟨vars, buf, todo, dst⟩]) vars buf :=
  endedWith_of_acts (settleActs_outermost h)

/-- The same where a procedure that has ended returns to it (R126). -/
theorem endedWith_continueWith_return {todo : List Todo} (h : settleTodo todo = []) (s : State) {a : Activation}
    (ha : a.todo = []) (vars : List (Local × Nat)) (buf : List Byte) (dst : Option Dest) :
    EndedWith (continueWith s [a, ⟨vars, buf, todo, dst⟩]) vars buf := by
  have hended : settleTodo a.todo = [] := by rw [ha]; rfl
  have hsettle : settleActs [a, ⟨vars, buf, todo, dst⟩] = settleActs [⟨vars, buf, todo, dst⟩] :=
    settleActs_ended hended _ []
  rw [continueWith, hsettle]
  exact endedWith_continueWith h s vars buf dst

/-- How the host goes on after the transaction of its next statement. -/
theorem afterBus_of_acts {s : State} {a : Activation} {callers : List Activation} {st : Stmt} {rest : Prog}
    {k : List Todo} (h : s.thread.acts = a :: callers) (ht : a.todo = .seq (.cons st rest) :: k) :
    afterBus s = continueWith s (afterStmt s.thread.rdata a st rest k :: callers) := by
  simp only [afterBus, h, ht]

/-- The host's step at a statement without a word. -/
theorem hostStep_of_acts {s : State} {a : Activation} {callers : List Activation} {st : Stmt} {rest : Prog}
    {k : List Todo} (h : s.thread.acts = a :: callers) (ht : a.todo = .seq (.cons st rest) :: k)
    (hword : stmtWord s.draws a.vars st = none) :
    hostStep s = controlStmt s { a with todo := .seq rest :: k } callers st := by
  have hfetch : fetch s = none := by simp only [fetch, h, ht, hword]
  simp only [hostStep, hfetch, hostControl, h, ht]

/-- A RET of the outermost sequence ends it with its locals as they are (log 10). -/
theorem returnFrom_outermost (s : State) (a : Activation) (r : RetValue) :
    returnFrom s a [] r = .next (continueWith s [{ a with todo := [] }]) := by
  cases r <;> rfl

/-- A step of an ended host's machine is one of BUS, of TCLK or of nobody, and leaves the host (R303). -/
theorem step_thread_of_ended {s t : State} (hend : hostEnabled s = false) (h : step s = .next t) :
    t.thread = s.thread := by
  obtain ⟨hbus, htclk, -, hnone, hpins⟩ := agentsChangeOnlyTheirOwn s t h
  cases hm : mover s with
  | none =>
    obtain ⟨-, -, -, hthread⟩ := hnone hm
    exact hthread
  | some a =>
    cases a with
    | host => exact absurd ((mover_enabled hm).symm.trans hend) (by decide)
    | bus =>
      obtain ⟨-, -, hthread⟩ := hbus hm
      exact hthread
    | tclk =>
      obtain ⟨-, -, hthread⟩ := htclk hm
      exact hthread
    | pins => exact absurd hm hpins

/-- Every step leaves the locals and the byte list of an ended sequence. -/
theorem endedWith_step {s t : State} {vars : List (Local × Nat)} {buf : List Byte} (he : EndedWith s vars buf)
    (h : step s = .next t) : EndedWith t vars buf := by
  obtain ⟨⟨dst, hacts⟩, hend⟩ := he
  refine endedWith_of_acts (dst := dst) ?_
  rw [step_thread_of_ended hend h, hacts]

/-- Settles O60: what is left after the statement settles to nothing, so the outermost activation stays with the value
bound. -/
theorem resultsStayWhenTheSequenceEnds : Obligations.ResultsStayWhenTheSequenceEnds := by
  intro s vars buf dst k x hk
  have hrest : settleTodo (.seq .done :: k) = [] := hk
  refine ⟨fun a h => ?_, fun a b h => ?_, fun w e h => ?_, fun r rest l h => ?_, fun inner list e rest l h => ?_,
    fun inner list rest l h => ?_, fun t => endedWith_step⟩
  · rw [afterBus_of_acts h rfl]
    exact ⟨_, endedWith_continueWith hrest s _ buf dst, lookup_bound vars x _⟩
  · rw [afterBus_of_acts h rfl]
    exact ⟨_, endedWith_continueWith hrest s _ buf dst, lookup_bound vars x _⟩
  · cases w with
    | byte | count =>
      exact ⟨_, _, hostStep_of_acts h rfl rfl, endedWith_continueWith hrest s _ buf dst, lookup_bound vars x _⟩
  · exact ⟨_, (hostStep_of_acts h rfl rfl).trans (returnFrom_outermost s _ r), endedWith_of_acts rfl⟩
  · exact ⟨_, _, hostStep_of_acts h rfl rfl, endedWith_continueWith_return hk s rfl _ buf dst, lookup_bound vars x _⟩
  · exact ⟨_, hostStep_of_acts h rfl rfl, endedWith_continueWith_return hk s rfl vars list dst⟩

end Sys2Proof.Machine
end

section
/-! The address map and the frame of a transaction (R62, R63, R68, R110, R111). -/

namespace Sys2Proof.Machine

open Sys2Proof.Safety

/-! ## Addresses outside the map (R63) -/

/-- A word whose address is not in the map is no instruction, whatever its other fields (R82). -/
theorem decode_of_not_mapped {w : BusWord} (h : addrField w ∉ addressMap) : decode w = .error .unmapped := by
  have hmap : ¬ mapped (addrField w) = true := by simpa [mapped] using h
  exact if_neg hmap

/-- An access to an address outside the map faults, read or write (R63). -/
theorem transact_of_not_mapped {a : Addr} (h : a ∉ addressMap) (w : Bool) (v : Byte) (s : State) :
    transact (busWord w a v) s = .fault .unmapped :=
  transact_of_unmapped (decode_of_not_mapped (by rwa [addrField_busWord])) s

/-- Settles O6: the fourteen literals are the address map, and the decoder looks at the address first. -/
theorem unmappedAddressesFault : Obligations.UnmappedAddressesFault := by
  intro a v s h
  have hmap : a ∉ addressMap := h
  exact ⟨transact_of_not_mapped hmap false 0x00 s, transact_of_not_mapped hmap true v s⟩

/-! ## Reads (R68, R110) -/

/-- A TWDR read gives a byte in every state, a drawn one while an operation is pending (R184). -/
theorem execRdTwdr_completes_always (s : State) :
    ∃ v, execRdTwdr s = .next (readDone s v) ∨ execRdTwdr s = .next (readDone (advanceDraws s) v) := by
  unfold execRdTwdr
  split
  · exact ⟨_, .inr rfl⟩
  · exact ⟨_, .inl rfl⟩

/-- Every read gives a byte in every state, and does nothing else but use a draw where the byte is drawn (R110). -/
theorem exec_read {i : Instr} (h : isRead i = true) (s : State) :
    ∃ v, exec i s = .next (readDone s v) ∨ exec i s = .next (readDone (advanceDraws s) v) := by
  cases i with
  | rdPinb => exact ⟨_, .inr rfl⟩
  | rdTwdr => exact execRdTwdr_completes_always s
  | rdDdrb | rdPortb | rdTifr0 | rdTccr0a | rdTccr0b | rdTcnt0 | rdOcr0a | rdOcr0b | rdTimsk0 | rdTwbr | rdTwsr
  | rdTwcr => exact ⟨_, .inl rfl⟩
  | wrPinb | wrDdrb | wrPortb | wrTifr0 | wrTccr0a | wrTccr0b | wrTccr0bHi | wrTcnt0 | wrOcr0a | wrOcr0b | wrTimsk0
  | wrTwbr | wrTwsr | wrTwdr | wrTwcrDisable | wrTwcrConfig | wrTwcrStart | wrTwcrStopStart | wrTwcrStop
  | wrTwcrContAck | wrTwcrContNack => exact absurd (h.symm.trans (isRead_of_writeWord rfl)) (by decide)

/-- Settles O49: a read only hands over its byte, and neither that nor a draw touches a register. -/
theorem readsChangeNoRegister : Obligations.ReadsChangeNoRegister := by
  intro i s h
  obtain ⟨v, hv | hv⟩ := exec_read h s
  · exact ⟨_, hv, rfl, rfl, rfl⟩
  · exact ⟨_, hv, rfl, rfl, rfl⟩

/-! ## The unit a write addresses (R62) -/

/-- A transaction at the address of TWCR addresses the TWI unit. -/
theorem unitOf_of_addrTwcr {i : Instr} (h : addrField (encode i) = addrTwcr) : unitOf i = .twi := by
  cases i with
  | rdTwbr | wrTwbr | rdTwsr | wrTwsr | rdTwdr | wrTwdr | rdTwcr | wrTwcrDisable | wrTwcrConfig | wrTwcrStart
  | wrTwcrStopStart | wrTwcrStop | wrTwcrContAck | wrTwcrContNack => rfl
  | rdPinb | rdDdrb | rdPortb | rdTifr0 | rdTccr0a | rdTccr0b | rdTcnt0 | rdOcr0a | rdOcr0b | rdTimsk0 =>
    exact absurd h (by decide)
  | wrPinb | wrDdrb | wrPortb | wrTifr0 | wrTccr0a | wrTccr0b | wrTccr0bHi | wrTcnt0 | wrOcr0a | wrOcr0b | wrTimsk0 =>
    exact absurd ((addrField_busWord _ _ _).symm.trans h) (by decide)

/-- Where a write changes the TWI unit by its rule, its address is one of that unit. -/
theorem TwiWritten.unit {i : Instr} {t u : Twi} (hw : TwiWritten i t u) : unitOf i = .twi := by
  cases hw with
  | twbr | twsr | twdr | collision | disable | config => rfl
  | command hword => exact unitOf_of_addrTwcr (by rw [hword]; exact addrField_busWord _ _ _)

/-- Where a write changes the timer unit by its rule, its address is one of that unit. -/
theorem TmrWritten.unit {i : Instr} {t u : Tmr} (hw : TmrWritten i t u) : unitOf i = .tmr := by
  cases hw <;> rfl

/-! ## What a completing transaction leaves unchanged (R62, R110, R111) -/

/-- A transaction to another unit leaves the port but for the stale mask, which it clears (R167). -/
theorem Completes.gpio_of_other {i : Instr} {s t : State} (h : Completes i s t) (hu : unitOf i ≠ .gpio) :
    t.gpio = { s.gpio with stale := 0x00 } := by
  cases h with
  | read | drawnRead | tmr | twi => rfl
  | gpio _ hunit => exact absurd hunit hu

/-- A write leaves the host: only reads give it a byte (R110, R111). -/
theorem Completes.thread_of_write {i : Instr} {s t : State} (h : Completes i s t) (hwrite : isRead i = false) :
    t.thread = s.thread := by
  cases h with
  | read _ hread => exact absurd (hwrite.symm.trans hread) (by decide)
  | drawnRead _ hdraw =>
    obtain rfl | ⟨rfl, -⟩ := hdraw <;> exact absurd hwrite (by decide)
  | gpio | tmr | twi => rfl

/-- Of the host a transaction changes at most the byte read, and the turn it leaves (R110, R111). -/
theorem Completes.thread_and_turn {i : Instr} {s t : State} (h : Completes i s t) :
    t.thread = { s.thread with rdata := t.thread.rdata } ∧ t.turn = s.turn := by
  cases h <;> exact ⟨rfl, rfl⟩

/-- The phase Pending names its operation (R24, R29). -/
theorem exists_op_of_isPending {t : Twi} (h : isPending t = true) : ∃ op, t.phase = .pending op := by
  cases hp : t.phase with
  | pending op => exact ⟨op, rfl⟩
  | off | idle | held | stopping => simp [isPending, hp] at h

/-- A draw is used by a PINB read, and by a TWDR read while an operation is pending (R162, R184). -/
theorem Completes.draws {i : Instr} {s t : State} (h : Completes i s t) (hpinb : i ≠ .rdPinb)
    (htwdr : i ≠ .rdTwdr ∨ ∀ op, s.twi.phase ≠ .pending op) : t.draws = s.draws := by
  cases h with
  | read | gpio | tmr | twi => rfl
  | drawnRead _ hdraw =>
    obtain ⟨hi, hpending⟩ := hdraw.resolve_left hpinb
    obtain ⟨op, hop⟩ := exists_op_of_isPending hpending
    exact absurd hop (htwdr.resolve_left (not_not_intro hi) op)

/-- Settles O48: each clause is read off the ways a transaction completes. -/
theorem transactionsChangeOnlyTheirUnit : Obligations.TransactionsChangeOnlyTheirUnit := by
  intro i s t h
  have hc : Completes i s t := exec_completes h
  obtain ⟨hfaulted, hrefused⟩ := hc.marks
  obtain ⟨hthread, hturn⟩ := hc.thread_and_turn
  exact ⟨fun hu => hc.twi_cases.resolve_right fun hw => hu hw.unit,
    fun hu => hc.tmr_cases.resolve_right fun hw => hu hw.unit,
    hc.gpio_of_other, hc.thread_of_write, hthread, hfaulted, hrefused, hturn, hc.draws⟩

end Sys2Proof.Machine
end

section
/-! The rows of the opcode map and the words they accept (R80, R82, R84). -/

namespace Sys2Proof

open Sys2Proof.Machine

/-! ## The fields of a word (R80) -/

/-- Two words are equal where their three fields are. -/
theorem busWord_eq_iff {w x : BusWord} :
    w = x ↔ writeField w = writeField x ∧ addrField w = addrField x ∧ dataField w = dataField x := by
  constructor
  · rintro rfl
    exact ⟨rfl, rfl, rfl⟩
  · rintro ⟨hw, ha, hd⟩
    rw [← busWord_fields w, ← busWord_fields x, hw, ha, hd]

@[simp] theorem writeField_and (w m : BusWord) : writeField (w &&& m) = (writeField w && writeField m) :=
  BitVec.getLsbD_and

@[simp] theorem addrField_and (w m : BusWord) : addrField (w &&& m) = addrField w &&& addrField m :=
  BitVec.extractLsb'_and

@[simp] theorem dataField_and (w m : BusWord) : dataField (w &&& m) = dataField w &&& dataField m :=
  BitVec.extractLsb'_and

/-- Masking the data bits of a read word away leaves the word of its address (R84, R110). -/
theorem and_addressMask {w : BusWord} (h : writeField w = false) : w &&& 0x1FFFF00 = readWord (addrField w) := by
  have haddr : addrField 0x1FFFF00 = BitVec.allOnes 16 := by decide
  have hdata : dataField 0x1FFFF00 = 0 := by decide
  rw [busWord_eq_iff, writeField_and, addrField_and, dataField_and, h, haddr, hdata, BitVec.and_allOnes]
  simp [readWord]

/-! ## What a row accepts (R82, R84) -/

/-- Every row fixes bit 24 and the whole address, and its address is in the map (R84). -/
theorem rows_fix_address :
    ∀ r ∈ rows, writeField r.mask = true ∧ addrField r.mask = BitVec.allOnes 16 ∧ addrField r.value ∈ addressMap := by
  decide

/-- A row accepts the words of its direction and its address whose data byte fits its D pattern (R84). -/
theorem rowAccepts_iff {r : Row} (hr : r ∈ rows) (w : BusWord) :
    rowAccepts r w = true ↔
      writeField w = writeField r.value ∧ addrField w = addrField r.value ∧
        fits (dataField w) (dataField r.mask) (dataField r.value) = true := by
  obtain ⟨hwrite, haddr, -⟩ := rows_fix_address r hr
  rw [rowAccepts, fits, beq_iff_eq, beq_iff_eq, busWord_eq_iff, writeField_and, addrField_and, dataField_and, hwrite,
    haddr, Bool.and_true, BitVec.and_allOnes]

/-- Rows that differ in a bit both of them fix share no word (R82). -/
theorem not_rowAccepts_both {r q : Row} (h : (r.mask &&& q.mask) &&& (r.value ^^^ q.value) ≠ 0) {w : BusWord}
    (hr : rowAccepts r w = true) : rowAccepts q w ≠ true := by
  intro hq
  rw [rowAccepts, beq_iff_eq] at hr hq
  apply h
  rw [← hr, ← hq]
  ext i hi
  simp only [BitVec.getElem_and, BitVec.getElem_xor]
  cases w[i] <;> cases r.mask[i] <;> simp

/-- No two rows accept one word (R82). -/
theorem rows_pairwise_exclusive (w : BusWord) :
    rows.Pairwise (fun r q => rowAccepts r w = true → rowAccepts q w ≠ true) :=
  rows_pairwise_disjoint.imp fun h => not_rowAccepts_both h

/-- The row that accepts a word is one (R82). -/
theorem row_unique {r q : Row} (hr : r ∈ rows) (hq : q ∈ rows) {w : BusWord} (hrw : rowAccepts r w = true)
    (hqw : rowAccepts q w = true) : r = q := by
  by_contra hne
  have : Std.Symm (fun r q : Row => rowAccepts r w = true → rowAccepts q w ≠ true) := ⟨fun _ _ h hq hr => h hr hq⟩
  exact (rows_pairwise_exclusive w).forall hr hq hne hrw hqw

/-- At most one row accepts a word (R82). -/
theorem accepting_rows_length_le_one (w : BusWord) : (rows.filter (fun r => rowAccepts r w)).length ≤ 1 := by
  have hpair := (rows_pairwise_exclusive w).filter (fun r => rowAccepts r w)
  have hacc : ∀ r ∈ rows.filter (fun r => rowAccepts r w), rowAccepts r w = true :=
    fun r hr => (List.mem_filter.1 hr).2
  generalize rows.filter (fun r => rowAccepts r w) = l at hpair hacc
  match l with
  | [] | [_] => simp
  | r :: q :: l =>
    exact absurd (hacc q (by simp)) (List.rel_of_pairwise_cons hpair (List.mem_cons_self ..) (hacc r (by simp)))

/-! ## The decoder (R82) -/

/-- The address of an accepted word is in the map. -/
theorem addrField_mem_of_rowAccepts {r : Row} (hr : r ∈ rows) {w : BusWord} (h : rowAccepts r w = true) :
    addrField w ∈ addressMap := by
  obtain ⟨-, -, hmap⟩ := rows_fix_address r hr
  obtain ⟨-, haddr, -⟩ := (rowAccepts_iff hr w).1 h
  rwa [haddr]

theorem mapped_iff (a : Addr) : mapped a = true ↔ a ∈ addressMap := by simp [mapped]

/-- A word that a row accepts is the row's instruction with the word's data byte (R82 step 2). -/
theorem decode_of_row {r : Row} (hr : r ∈ rows) {w : BusWord} (h : rowAccepts r w = true) :
    decode w = .ok (r.build (dataField w)) := by
  obtain ⟨q, hq⟩ : ∃ q, rows.find? (fun r => rowAccepts r w) = some q :=
    Option.isSome_iff_exists.1 (List.find?_isSome.2 ⟨r, hr, h⟩)
  have hqw : rowAccepts q w = true := by simpa using List.find?_some hq
  obtain rfl := row_unique hr (List.mem_of_find?_eq_some hq) h hqw
  simp only [decode, (mapped_iff _).2 (addrField_mem_of_rowAccepts hr h), hq, if_true]

/-- A word at a mapped address that no row accepts is reserved (R82 step 3). -/
theorem decode_of_no_row {w : BusWord} (h : addrField w ∈ addressMap) (hno : ∀ r ∈ rows, rowAccepts r w ≠ true) :
    decode w = .error (reservedReason w) := by
  simp only [decode, (mapped_iff _).2 h, List.find?_eq_none.2 hno, if_true]

/-- A word decodes to an instruction only by a row that accepts it. -/
theorem decode_eq_ok {w : BusWord} {i : Instr} (h : decode w = .ok i) :
    ∃ r ∈ rows, rowAccepts r w = true ∧ i = r.build (dataField w) := by
  by_cases hrow : ∃ r ∈ rows, rowAccepts r w = true
  · obtain ⟨r, hr, hrw⟩ := hrow
    rw [decode_of_row hr hrw] at h
    exact ⟨r, hr, hrw, (Except.ok.inj h).symm⟩
  · by_cases hmap : addrField w ∈ addressMap
    · rw [decode_of_no_row hmap (by simpa using hrow)] at h
      cases h
    · rw [decode_of_not_mapped hmap] at h
      cases h

/-- A word that would enable an interrupt is refused by that name (R82, R276). -/
theorem Machine.transact_of_interruptEnable {w : BusWord} (h : decode w = .error .interruptEnable) (s : State) :
    transact w s = .refused .interruptEnable := by
  simp [transact, h]

/-- Any other word that no row accepts is refused as a reserved value (R82, R89). -/
theorem Machine.transact_of_reservedValue {w : BusWord} (h : decode w = .error .reservedValue) (s : State) :
    transact w s = .refused .reservedValue := by
  simp [transact, h]

/-! ## The instruction of a row (R84) -/

/-- A row's instruction is well formed exactly where the byte fits the row's D pattern (R84). -/
theorem wf_build : ∀ r ∈ rows, ∀ v, (r.build v).wf = fits v (dataField r.mask) (dataField r.value) := by
  simp [rows, rowsGpio, rowsTimer, rowsTwi, rowsTwcr, Instr.wf, fits, dataField]

/-- The word of a row's instruction has the row's direction and address; a write carries the byte, a read zeros (R80,
R110, R111). -/
theorem encode_build :
    ∀ r ∈ rows, ∀ v, encode (r.build v) = busWord (writeField r.value) (addrField r.value)
      (if writeField r.value then v else 0x00) := by
  simp [rows, rowsGpio, rowsTimer, rowsTwi, rowsTwcr, encode, readWord, writeWord, writeField, addrField,
    addrPinb, addrDdrb, addrPortb, addrTifr0, addrTccr0a, addrTccr0b, addrTcnt0, addrOcr0a, addrOcr0b, addrTimsk0,
    addrTwbr, addrTwsr, addrTwdr, addrTwcr]

/-- Every instruction is built by a row, from the data byte of its own word (R84). -/
theorem exists_row (i : Instr) : ∃ r ∈ rows, r.build (dataField (encode i)) = i := by
  simp only [rows, List.mem_append, or_and_right, exists_or]
  cases i with
  | rdPinb | wrPinb | rdDdrb | wrDdrb | rdPortb | wrPortb =>
    exact .inl (.inl (.inl (by simp [rowsGpio, encode, writeWord])))
  | rdTifr0 | wrTifr0 | rdTccr0a | wrTccr0a | rdTccr0b | wrTccr0b | wrTccr0bHi | rdTcnt0 | wrTcnt0 | rdOcr0a | wrOcr0a
  | rdOcr0b | wrOcr0b | rdTimsk0 | wrTimsk0 =>
    exact .inl (.inl (.inr (by simp [rowsTimer, encode, writeWord])))
  | rdTwbr | wrTwbr | rdTwsr | wrTwsr | rdTwdr | wrTwdr | rdTwcr =>
    exact .inl (.inr (by simp [rowsTwi, encode, writeWord]))
  | wrTwcrDisable | wrTwcrConfig | wrTwcrStart | wrTwcrStopStart | wrTwcrStop | wrTwcrContAck | wrTwcrContNack =>
    exact .inr (by simp [rowsTwcr, encode, writeWord])

/-- Settles O1: the row that builds the instruction accepts its word, and it is the only one that does. -/
theorem decodeEncodeRoundTrip : Obligations.DecodeEncodeRoundTrip := by
  intro i hwf
  obtain ⟨r, hr, hi⟩ := exists_row i
  have hword := encode_build r hr (dataField (encode i))
  have hfits := wf_build r hr (dataField (encode i))
  rw [hi] at hword hfits
  have haccept : rowAccepts r (encode i) = true := by
    rw [rowAccepts_iff hr, ← hfits]
    refine ⟨?_, ?_, hwf⟩ <;> rw [hword] <;> simp
  rw [decode_of_row hr haccept, hi]

/-- Settles O2: the word is accepted by the row that builds the instruction, so its fields are that row's. -/
theorem decodedInstructionsAreWellFormed : Obligations.DecodedInstructionsAreWellFormed := by
  intro w i h
  obtain ⟨r, hr, hrw, rfl⟩ := decode_eq_ok h
  obtain ⟨hwrite, haddr, hfits⟩ := (rowAccepts_iff hr w).1 hrw
  have hword := encode_build r hr (dataField w)
  rw [← hwrite, ← haddr] at hword
  refine ⟨(wf_build r hr _).trans hfits, fun h24 => ?_, fun h24 => ?_⟩
  · have hw : writeField w = true := h24
    rw [hword, if_pos hw, busWord_fields]
  · have hw : writeField w = false := h24
    rw [hword, hw, and_addressMask hw]
    rfl

/-- Settles O3: the three steps of R82 in their order, and the bus access that reads their result. -/
theorem decoderFollowsTheMap : Obligations.DecoderFollowsTheMap := by
  intro w a d
  refine ⟨fun ha => decode_of_not_mapped ha, fun r hr hrw => decode_of_row hr (beq_iff_eq.2 hrw), fun ha hno => ?_,
    accepting_rows_length_le_one w, fun s => ⟨fun h => transact_of_unmapped h s,
    fun h => transact_of_interruptEnable h s, fun h => transact_of_reservedValue h s⟩⟩
  rw [decode_of_no_row ha fun r hr hrw => hno r hr (beq_iff_eq.1 hrw)]
  congr 1
  simp [reservedReason, a, d, writeField, addrField, dataField, addrTwcr, addrTimsk0]

end Sys2Proof
end

section
/-! What a TWCR write decodes to (R85), and the bits of a write that are ignored (R90). -/

namespace Sys2Proof.Machine

/-! ## TWCR writes by class (R82, R85) -/

/-- What the decoder answers to a TWCR write of a byte of this class (R82, R85). -/
def twcrAnswer (cls : TwcrClass) (v : Byte) : Except DecodeError Instr :=
  match cls with
  | .disable => .ok (.wrTwcrDisable v)
  | .config => .ok (.wrTwcrConfig v)
  | .start => .ok (.wrTwcrStart v)
  | .stop => .ok (.wrTwcrStop v)
  | .stopStart => .ok (.wrTwcrStopStart v)
  | .contAck => .ok (.wrTwcrContAck v)
  | .contNack => .ok (.wrTwcrContNack v)
  | .reserved => .error .reservedValue
  | .interruptEnable => .error .interruptEnable

/-- A byte of an admitted class fits the D pattern of the class's row (R84, R85). -/
theorem wf_twcrAnswer : ∀ v : Byte, (twcrAnswer (twcrClass v) v).toOption.all Instr.wf = true := by decide

/-- A row of a TWCR write takes bytes of the admitted classes only (R84, R85). -/
theorem class_of_twcr_row : ∀ r ∈ rows, writeField r.value = true → addrField r.value = addrTwcr →
    ∀ v : Byte, fits v (dataField r.mask) (dataField r.value) = true → twcrClass v ∈ admittedClasses := by
  decide

/-- Bit 0 of a byte makes it an interrupt enable, whatever its other bits (R85). -/
theorem interruptEnable_of_class : ∀ v : Byte, twcrClass v = .interruptEnable → v.getLsbD 0 = true := by decide

/-- A reserved byte does not enable the interrupt (R85). -/
theorem not_interruptEnable_of_reserved : ∀ v : Byte, twcrClass v = .reserved → v.getLsbD 0 = false := by decide

/-- A TWCR write of a byte of no admitted class is no instruction, and bit 0 tells its name (R82, R85). -/
theorem decode_twcr_of_not_admitted {v : Byte} (h : twcrClass v ∉ admittedClasses) :
    decode (writeWord addrTwcr v) = .error (if v.getLsbD 0 then .interruptEnable else .reservedValue) := by
  have haddr : addrField (writeWord addrTwcr v) = addrTwcr := addrField_busWord _ _ _
  rw [decode_of_no_row]
  · have hne : addrTwcr ≠ addrTimsk0 := by decide
    simp [reservedReason, writeWord, hne]
  · rw [haddr]; decide
  · intro r hr hrw
    obtain ⟨hwrite, haddr, hfits⟩ := (rowAccepts_iff hr _).1 hrw
    simp only [writeWord, writeField_busWord, addrField_busWord, dataField_busWord] at hwrite haddr hfits
    exact h (class_of_twcr_row r hr hwrite.symm haddr.symm v hfits)

/-- The instruction of an admitted class has the word it is read from, so it is read back (R80, R84). -/
theorem decode_twcr_of_admitted {v : Byte} {i : Instr} (h : twcrAnswer (twcrClass v) v = .ok i) :
    decode (writeWord addrTwcr v) = .ok i := by
  have hwf : i.wf = true := by simpa [h, Except.toOption] using wf_twcrAnswer v
  have hword : encode i = writeWord addrTwcr v := by
    generalize twcrClass v = cls at h
    cases cls <;> cases h <;> rfl
  rw [← hword, decodeEncodeRoundTrip i hwf]

/-- The decoder reads a TWCR write by the class of its byte (R85). -/
theorem decode_twcr (v : Byte) : decode (writeWord addrTwcr v) = twcrAnswer (twcrClass v) v := by
  cases hc : twcrClass v with
  | disable | config | start | stop | stopStart | contAck | contNack =>
    exact decode_twcr_of_admitted (by rw [hc]; rfl)
  | reserved =>
    rw [decode_twcr_of_not_admitted (by rw [hc]; decide), not_interruptEnable_of_reserved v hc]
    rfl
  | interruptEnable =>
    rw [decode_twcr_of_not_admitted (by rw [hc]; decide), interruptEnable_of_class v hc]
    rfl

/-- Settles O4: the word is a TWCR write's, and the bits are split in the order of R85. -/
theorem twcrByteClasses : Obligations.TwcrByteClasses := by
  intro v
  have hword : 0x100BC00 ||| v.setWidth 25 = writeWord addrTwcr v := by revert v; decide
  rw [hword, decode_twcr, twcrClass]
  cases v.getLsbD 0 with
  | true => rfl
  | false =>
    cases v.getLsbD 2 with
    | false => cases v.getLsbD 5 <;> cases v.getLsbD 4 <;> rfl
    | true =>
      cases v.getLsbD 7 with
      | false => cases v.getLsbD 5 <;> cases v.getLsbD 4 <;> rfl
      | true =>
        cases v.getLsbD 5 <;> cases v.getLsbD 4
        case false.false => cases v.getLsbD 6 <;> rfl
        all_goals rfl

/-- Settles O5: each of the words is the encoding of the instruction it is said to be. -/
theorem wordsOfTheSpecDecode : Obligations.WordsOfTheSpecDecode :=
  ⟨decodeEncodeRoundTrip (.wrTwcrStart 0xA4) rfl, decodeEncodeRoundTrip (.wrTwcrStop 0x94) rfl,
    decodeEncodeRoundTrip (.wrTwcrContNack 0x84) rfl, decodeEncodeRoundTrip (.wrTwcrContAck 0xC4) rfl,
    decodeEncodeRoundTrip .rdTwsr rfl, decodeEncodeRoundTrip .rdTwcr rfl, decodeEncodeRoundTrip (.wrTwdr 0xD0) rfl,
    decodeEncodeRoundTrip (.wrTwbr 0x0C) rfl, decodeEncodeRoundTrip (.wrTccr0a 0x02) rfl,
    decodeEncodeRoundTrip (.wrTccr0b 0x03) rfl, decodeEncodeRoundTrip (.wrOcr0a 0xF9) rfl,
    decodeEncodeRoundTrip .rdTifr0 rfl, decodeEncodeRoundTrip (.wrDdrb 0x20) rfl, decodeEncodeRoundTrip .rdPinb rfl⟩

/-! ## The ignored bits of a TWCR write (R90) -/

/-- The class of a TWCR byte does not look at bits 3 and 1 (R85, R90). -/
theorem twcrClass_and (v : Byte) : twcrClass (v &&& 0xF5) = twcrClass v := by
  simp [twcrClass]

/-- The field update of a command does not look at bits 3 and 1 (R188, R90). -/
theorem commandFields_and (v : Byte) (t : Twi) : commandFields (v &&& 0xF5) t = commandFields v t := by
  simp [commandFields]

/-- TWEA as written is none of the ignored bits (R90). -/
theorem ea_and (v : Byte) : (v &&& 0xF5).getLsbD 6 = v.getLsbD 6 := by
  simp

/-- A TWCR write is the same for two bytes of one class that its command does not tell apart. -/
theorem twcrWrite_congr {v v' : Byte} (hc : twcrClass v' = twcrClass v) {f f' : Twi → Option Twi} (s : State)
    (hf : f' s.twi = f s.twi) (cls : TwcrClass) : twcrWrite cls v' f' s = twcrWrite cls v f s := by
  simp only [twcrWrite, hc, hf]

/-- No TWCR write looks at bits 3 and 1 of its byte (R90). -/
theorem transact_twcr_and (v : Byte) (s : State) :
    transact (writeWord addrTwcr (v &&& 0xF5)) s = transact (writeWord addrTwcr v) s := by
  have hc := twcrClass_and v
  rw [transact, transact, decode_twcr, decode_twcr, hc]
  cases twcrClass v with
  | reserved | interruptEnable => rfl
  | disable =>
    change execWrTwcrDisable (v &&& 0xF5) s = execWrTwcrDisable v s
    exact twcrWrite_congr hc s (by simp only [disableUnit, ea_and]) _
  | config =>
    change execWrTwcrConfig (v &&& 0xF5) s = execWrTwcrConfig v s
    exact twcrWrite_congr hc s (by simp only [configUnit, commandFields_and]) _
  | start => exact twcrWrite_congr hc s (by simp only [startCommand, launch, commandFields_and]) _
  | stopStart => exact twcrWrite_congr hc s (by simp only [stopStartCommand, launch, commandFields_and]) _
  | stop => exact twcrWrite_congr hc s (by simp only [stopCommand, commandFields_and]) _
  | contAck | contNack =>
    exact twcrWrite_congr hc s (by simp only [continueCommand, launch, commandFields_and, ea_and]) _

/-! ## Reserved bits read 0 (R90) -/

theorem getLsbD_twcrByte_one (t : Twi) : (twcrByte t).getLsbD 1 = false := by
  simp only [twcrByte, byteOfBits, BitVec.getLsbD_append]
  simp

theorem getLsbD_twsrByte_two (t : Twi) : (twsrByte t).getLsbD 2 = false := by
  simp only [twsrByte, BitVec.getLsbD_append]
  simp

theorem getLsbD_tifr0Byte_of_le (t : Tmr) {i : Nat} (hi : 3 ≤ i) : (tifr0Byte t).getLsbD i = false := by
  have h0 : i ≠ 0 := by omega
  have h1 : i - 1 ≠ 0 := by omega
  have h2 : i - 1 - 1 ≠ 0 := by omega
  simp only [tifr0Byte, byteOfBits, BitVec.getLsbD_append]
  simp [h0, h1, h2]

/-- Settles O32: the meanings read the relevant bits only, and the bytes read have 0 at the reserved ones. -/
theorem reservedBitsAreIgnoredAndReadZero : Obligations.ReservedBitsAreIgnoredAndReadZero := by
  refine ⟨fun s v => (transact_twcr_and v s).symm, fun s v => ?_, fun s v => ?_, ?_, ?_, ?_⟩
  · have hps : (v &&& 0x03).extractLsb' 0 2 = v.extractLsb' 0 2 := by revert v; decide
    simp only [exec, execWrTwsr, hps]
  · have hflags : clearTifr0 (v &&& 0x07) s.tmr = clearTifr0 v s.tmr := by simp [clearTifr0]
    simp only [exec, execWrTifr0, hflags]
  · rintro s t ⟨⟩
    exact getLsbD_twcrByte_one s.twi
  · rintro s t ⟨⟩
    exact getLsbD_twsrByte_two s.twi
  · rintro s t ⟨⟩ i hi
    exact getLsbD_tifr0Byte_of_le s.tmr hi

end Sys2Proof.Machine
end

section
/-! A step of the machine by what the host fetches and by who moves (R6, R110 to R112). -/

namespace Sys2Proof.Machine

/-! ## The host's step by its next word (R112) -/

theorem mapNext_mapNext (o : Result) (f g : State → State) : mapNext (mapNext o f) g = mapNext o (fun t => g (f t)) := by
  cases o <;> rfl

/-- Where the host's next statement issues a word, its step is the block's answer, then it goes on. -/
theorem hostStep_of_word {s : State} {w : BusWord} (h : fetch s = some w) :
    hostStep s = mapNext (transact w s) afterBus := by
  simp only [hostStep, h]

/-- Where the host's next statement issues no word, its step is the statement's own. -/
theorem hostStep_of_no_word {s : State} (h : fetch s = none) : hostStep s = hostControl s := by
  simp only [hostStep, h]

/-- Where nobody moves, BUS lets its step pass if it has one, else the run has come to its end (R7, R303). -/
theorem step_of_no_mover {s : State} (hf : s.faulted = false) (hr : s.refused = false) (hm : mover s = none) :
    step s = if enabled .bus s then .next (passTurn s) else .fault .noEnabledAgent := by
  simp [step, runStep, hf, hr, hm]

/-- The step of the machine at a word of the host. -/
theorem step_of_word {s : State} {w : BusWord} (hf : s.faulted = false) (hr : s.refused = false)
    (hm : mover s = some .host) (hw : fetch s = some w) :
    step s = mapNext (transact w s) (fun t => passTurn (afterBus t)) := by
  rw [step_of_mover hf hr hm, agentStep, hostStep_of_word hw, mapNext_mapNext]

/-- Settles O7: `step_of_mover` gives the step to who moves, and `decode` tells what the host's word does. -/
theorem stepRunsTheDecodedInstruction : Obligations.StepRunsTheDecodedInstruction := by
  intro s hf hr
  refine ⟨fun w i hm hw hd => ?_, fun w hm hw hd => ?_, fun w hm hw hd => ?_, fun w hm hw hd => ?_, fun hm hw => ?_,
    fun hm => ?_, fun hm => ?_, fun hm hb => ?_, fun hm hb => ?_⟩
  · rw [step_of_word hf hr hm hw, transact_of_ok hd]
  · rw [step_of_word hf hr hm hw, transact_of_unmapped hd, mapNext_fault]
  · rw [step_of_word hf hr hm hw, transact_of_interruptEnable hd, mapNext_refused]
  · rw [step_of_word hf hr hm hw, transact_of_reservedValue hd, mapNext_refused]
  · rw [step_of_mover hf hr hm, agentStep, hostStep_of_no_word hw]
  · exact step_of_mover hf hr hm
  · exact step_of_mover hf hr hm
  · rw [step_of_no_mover hf hr hm, if_pos hb]
  · rw [step_of_no_mover hf hr hm, hb]
    rfl

/-! ## A word placed as the host's next (R102; log 5) -/

/-- A byte as a literal is assigned as it is (R127). -/
theorem toByte_lit (n : Nat) (vars : List (Local × Nat)) (v : Byte) : toByte (evalExpr n vars (.lit v.toNat)) = v := by
  simp [toByte, evalExpr]

/-- A host that has the word's sequence loaded issues exactly that word, a read word's data bits being zero. -/
theorem fetch_loadWord (s : State) {w : BusWord} (h : writeField w = false → dataField w = 0x00) :
    fetch (loadWord s w) = some w := by
  cases hw : writeField w with
  | true =>
    have hprog : programOfWord w = .cons (.wr (addrField w) (.lit (dataField w).toNat)) .done := by
      simp [programOfWord, hw]
    simp only [fetch, loadWord, setActs, hprog, stmtWord, toByte_lit, writeWord]
    rw [← hw, busWord_fields]
  | false =>
    have hprog : programOfWord w = .cons (.rd (addrField w) 0) .done := by simp [programOfWord, hw]
    simp only [fetch, loadWord, setActs, hprog, stmtWord, readWord]
    rw [← hw, ← h hw, busWord_fields]

/-- Settles O8: the word of those 32 bits is `w` itself, and `loadWord` gives it to the host, whose turn it makes. -/
theorem fetchWordIsIssuedNext : Obligations.FetchWordIsIssuedNext := by
  intro s w h t
  have hw : w.toNat % 2 ^ 32 = w.toNat := Nat.mod_eq_of_lt (by omega)
  have ht : t = loadWord s w := by
    simp only [t, State.withFetchWord, hw, BitVec.ofNat_toNat, BitVec.setWidth_eq]
  rw [ht]
  exact ⟨fetch_loadWord s h, rfl, rfl, rfl, rfl, rfl, rfl, rfl⟩

end Sys2Proof.Machine
end

section
/-! What the host's statements on a register do (R115 to R120), the path a failed status check takes (R244, R280), and
that every host statement without a word runs but for the two refusals of the spec (R115, R242). -/

namespace Sys2Proof.Machine

open Sys2Proof.Safety

/-! ## The host at a statement (R101, R122) -/

/-- The word of the host's next step is the word of the statement in front. -/
theorem fetch_of_acts {s : State} {a : Activation} {callers : List Activation} {st : Stmt} {rest : Prog}
    {k : List Todo} (h : s.thread.acts = a :: callers) (ht : a.todo = .seq (.cons st rest) :: k) :
    fetch s = stmtWord s.draws a.vars st := by
  simp only [fetch, h, ht]

/-- A procedure with a statement in front is where the host goes on as it is. -/
theorem settleActs_of_todo {a : Activation} {st : Stmt} {rest : Prog} {k : List Todo}
    (ht : a.todo = .seq (.cons st rest) :: k) (callers : List Activation) :
    settleActs (a :: callers) = a :: callers := by
  obtain ⟨vars, buf, todo, dst⟩ := a
  cases ht
  rfl

/-- A host that goes on at the statement it stands at has not moved. -/
theorem continueWith_of_acts {s : State} {a : Activation} {callers : List Activation} {st : Stmt} {rest : Prog}
    {k : List Todo} (h : s.thread.acts = a :: callers) (ht : a.todo = .seq (.cons st rest) :: k) :
    continueWith s (a :: callers) = s := by
  rw [continueWith, settleActs_of_todo ht, ← h]
  rfl

/-! ## Bit operations (R115 to R118) -/

/-- A bit operation with an index above 7 is refused before any word. -/
theorem hostStep_of_badIndexNext {s : State} (h : BadIndexNext s) :
    fetch s = none ∧ hostStep s = .refused .badBitIndex := by
  obtain ⟨act, callers, st, rest, k, a, b, hacts, htodo, hb, hst⟩ := h
  have hb : ¬ b ≤ 7 := by omega
  have hword : stmtWord s.draws act.vars st = none := by
    obtain rfl | rfl | rfl | ⟨x, rfl⟩ := hst <;> exact if_neg hb
  refine ⟨(fetch_of_acts hacts htodo).trans hword, (hostStep_of_acts hacts htodo hword).trans ?_⟩
  obtain rfl | rfl | rfl | ⟨x, rfl⟩ := hst <;> rfl

/-- `st` is `SETB A, b`, `CLRB A, b` or `TGLB A, b`, and `f` is what it does to the byte of the register. -/
def IsBitChange (a : Addr) (b : Nat) (st : Stmt) (f : Byte → Byte) : Prop :=
  (st = .setb a b ∧ f = fun x => setBitOf x b) ∨ (st = .clrb a b ∧ f = fun x => clearBitOf x b) ∨
    (st = .tglb a b ∧ f = fun x => toggleBitOf x b)

theorem IsBitChange.stmtWord {a : Addr} {b : Nat} {st : Stmt} {f : Byte → Byte} (h : IsBitChange a b st f)
    (hb : b ≤ 7) (n : Nat) (vars : List (Local × Nat)) : stmtWord n vars st = some (readWord a) := by
  obtain ⟨rfl, -⟩ | ⟨rfl, -⟩ | ⟨rfl, -⟩ := h <;> exact if_pos hb

/-- After its read a bit operation has the write of the changed byte in front (log 18). -/
theorem IsBitChange.afterStmt {a : Addr} {b : Nat} {st : Stmt} {f : Byte → Byte} (h : IsBitChange a b st f)
    (x : Byte) (act : Activation) (rest : Prog) (k : List Todo) :
    afterStmt x act st rest k = { act with todo := .seq (.cons (.wr a (.lit (f x).toNat)) rest) :: k } := by
  obtain ⟨rfl, rfl⟩ | ⟨rfl, rfl⟩ | ⟨rfl, rfl⟩ := h <;> rfl

/-- A host at the write of a byte that is a constant of its text writes that byte, whatever was drawn since. -/
theorem fetch_of_write_lit {s : State} {act : Activation} {callers : List Activation} {a : Addr} {v : Byte}
    {rest : Prog} {k : List Todo} (h : s.thread.acts = act :: callers)
    (ht : act.todo = .seq (.cons (.wr a (.lit v.toNat)) rest) :: k) : fetch s = some (writeWord a v) := by
  rw [fetch_of_acts h ht, stmtWord, toByte_lit]

/-- Settles O52: the byte to write is a constant of the host's text, which no step of BUS or TCLK changes. -/
theorem bitOperationsAreReadThenWrite : Obligations.BitOperationsAreReadThenWrite := by
  intro s vars buf rest k dst callers a b st f hst hacts
  have hop : IsBitChange a b st f := hst
  refine ⟨fun hb => ?_, fun hb => hostStep_of_badIndexNext ?_⟩
  · have hnext : (afterBus s).thread.acts =
        ⟨vars, buf, .seq (.cons (.wr a (.lit (f s.thread.rdata).toNat)) rest) :: k, dst⟩ :: callers := by
      rw [afterBus_of_acts hacts rfl, hop.afterStmt]
      rfl
    have hwrite : ∀ t : State, t.thread = (afterBus s).thread → fetch t = some (writeWord a (f s.thread.rdata)) :=
      fun t ht => fetch_of_write_lit (ht ▸ hnext) rfl
    exact ⟨(fetch_of_acts hacts rfl).trans (hop.stmtWord hb _ _), hwrite _ rfl, hwrite _ (busStep_thread _),
      hwrite _ (tclkStep_thread _)⟩
  · refine ⟨_, _, st, rest, k, a, b, hacts, rfl, hb, ?_⟩
    obtain ⟨rfl, -⟩ | ⟨rfl, -⟩ | ⟨rfl, -⟩ := hst <;> simp

/-- Settles O53: `afterStmt` binds `testBitOf` of the byte read, which is 0 or 1. -/
theorem testBitBindsZeroOrOne : Obligations.TestBitBindsZeroOrOne := by
  intro s vars buf rest k dst callers a b x hacts
  refine ⟨fun hb => ⟨(fetch_of_acts hacts rfl).trans (if_pos hb), ?_⟩, fun hb => ?_⟩
  · exact ⟨_, afterBus_of_acts hacts rfl, lookup_bound vars x _⟩
  · obtain ⟨-, hrefused⟩ : fetch s = none ∧ hostStep s = .refused .badBitIndex :=
      hostStep_of_badIndexNext ⟨_, _, _, _, _, a, b, hacts, rfl, hb, .inr (.inr (.inr ⟨x, rfl⟩))⟩
    exact hrefused

/-! ## Polls (R119) -/

/-- Settles O54: a failed poll leaves the statement in front, so the host has not moved. -/
theorem pollSpinsUntilTheValue : Obligations.PollSpinsUntilTheValue := by
  intro s act rest k callers a m v hacts htodo
  refine ⟨fetch_of_acts hacts htodo, fun hne => ?_, fun heq => ?_⟩
  · rw [afterBus_of_acts hacts htodo, afterStmt, if_neg hne, continueWith_of_acts hacts htodo]
  · rw [afterBus_of_acts hacts htodo, afterStmt, if_pos heq]

/-! ## Calls (R126, R242) -/

theorem takesAddress_iff (p : ProcName) : takesAddress p = true ↔ p = .addressWrite ∨ p = .addressRead := by
  cases p <;> simp [takesAddress]

theorem isAddress_eq_false_iff (v : Int) : isAddress v = false ↔ v < 0 ∨ 0x7F < v := by
  simp only [isAddress, Bool.and_eq_false_iff, decide_eq_false_iff_not, not_le]

/-- A call of a procedure that takes no address always runs. -/
theorem callProc_of_not_takesAddress {p : ProcName} (hp : takesAddress p = false) (s : State) (a : Activation)
    (callers : List Activation) (args : List Expr) (dst : Option Dest) :
    callProc s a callers p args dst = .next (continueWith s
      (⟨bindParams 0 (procParams p) (args.map (evalExpr s.draws a.vars)), [], [.seq (procBody Config.params p)], dst⟩ ::
        a :: callers)) := by
  simp [callProc, hp]

/-- A call with an address that is no 7-bit number is refused. -/
theorem callProc_of_wide {p : ProcName} (hp : p = .addressWrite ∨ p = .addressRead) {s : State} {a : Activation}
    {e : Expr} (he : evalExpr s.draws a.vars e < 0 ∨ 0x7F < evalExpr s.draws a.vars e) (callers : List Activation)
    (args : List Expr) (dst : Option Dest) :
    callProc s a callers p (e :: args) dst = .refused .addrTooWide := by
  simp [callProc, (takesAddress_iff p).2 hp, (isAddress_eq_false_iff _).2 he]

/-- Every other call runs, also one without an argument (log 9). -/
theorem callProc_runs {p : ProcName} {s : State} {a : Activation} {args : List Expr}
    (h : ∀ e es, args = e :: es → p = .addressWrite ∨ p = .addressRead →
      ¬ (evalExpr s.draws a.vars e < 0 ∨ 0x7F < evalExpr s.draws a.vars e))
    (callers : List Activation) (dst : Option Dest) : ∃ t, callProc s a callers p args dst = .next t := by
  have hok : (!takesAddress p || ((args.map (evalExpr s.draws a.vars)).take 1).all isAddress) = true := by
    cases hp : takesAddress p with
    | false => rfl
    | true =>
      cases args with
      | nil => rfl
      | cons e es =>
        have hfits : isAddress (evalExpr s.draws a.vars e) = true := by
          rw [← Bool.not_eq_false, isAddress_eq_false_iff]
          exact h e es rfl ((takesAddress_iff p).1 hp)
        simp [hfits]
  exact ⟨_, by rw [callProc, hok, require_true]⟩

/-- A call of `addressWrite` or `addressRead` with an address that is no 7-bit number is refused before any word. -/
theorem hostStep_of_wideAddressNext {s : State} (h : WideAddressNext s) :
    fetch s = none ∧ hostStep s = .refused .addrTooWide := by
  obtain ⟨act, callers, rest, k, p, e, args, dst, hacts, htodo, hp, he⟩ := h
  refine ⟨fetch_of_acts hacts htodo, ?_⟩
  rw [hostStep_of_acts hacts htodo rfl]
  exact callProc_of_wide (a := { act with todo := .seq rest :: k }) hp he callers args dst

/-! ## The fault path of a status check (R120, R243, R244, R280) -/

section

variable {s : State} {a : Activation} {callers : List Activation} {st : Stmt} {rest : Prog} {k : List Todo}

/-- A call of a procedure that takes no address puts the host at the procedure's first statement. -/
theorem hostStep_call {p : ProcName} {args : List Expr} {dst : Option Dest} {after : Prog}
    (h : s.thread.acts = a :: callers) (ht : a.todo = .seq (.cons (.call p args dst) after) :: k)
    (hp : takesAddress p = false) (hbody : procBody Config.params p = .cons st rest) :
    ∃ t, hostStep s = .next t ∧ SameBlock s t ∧ t.thread = { s.thread with
      acts := ⟨bindParams 0 (procParams p) (args.map (evalExpr s.draws a.vars)), [], [.seq (.cons st rest)], dst⟩ ::
        { a with todo := .seq after :: k } :: callers } := by
  refine ⟨_, (hostStep_of_acts h ht rfl).trans (callProc_of_not_takesAddress hp s _ callers args dst),
    sameBlock_continueWith s _, ?_⟩
  rw [hbody]
  rfl

/-- The host sets the fault site and stands at the next statement. -/
theorem hostStep_setSite {site : Site} (h : s.thread.acts = a :: callers)
    (ht : a.todo = .seq (.cons (.setSite site) (.cons st rest)) :: k) :
    ∃ t, hostStep s = .next t ∧ SameBlock s t ∧ t.thread = { s.thread with
      acts := { a with todo := .seq (.cons st rest) :: k } :: callers, faultSite := some site } :=
  ⟨_, hostStep_of_acts h ht rfl, .refl s, rfl⟩

/-- The host sends an event and stands at the next statement. -/
theorem hostStep_emit {text : String} {e : Option Expr} (h : s.thread.acts = a :: callers)
    (ht : a.todo = .seq (.cons (.emit text e) (.cons st rest)) :: k) :
    ∃ t, hostStep s = .next t ∧ SameBlock s t ∧ t.thread = { s.thread with
      acts := { a with todo := .seq (.cons st rest) :: k } :: callers
      emitted := s.thread.emitted ++ [(text, e.map (fun d => toByte (evalExpr s.draws a.vars d)))] } :=
  ⟨_, hostStep_of_acts h ht rfl, .refl s, rfl⟩

end

/-- A value bound as a byte and then emitted is the value reduced once (R121, R127). -/
theorem toByte_reduceTo_byte (v : Int) : toByte (reduceTo .byte v) = BitVec.ofInt 8 v := by
  have hpos : (reduceTo .byte v : Int) = v % 256 := Int.toNat_of_nonneg (Int.emod_nonneg v (by decide))
  rw [toByte, hpos]
  exact BitVec.eq_of_toInt_eq (by simpa using Int.emod_bmod v 256)

/-- `reportAndFault` emits the value of its argument, where it is given one (R244). -/
theorem reportAndFault_value (n : Nat) (vars : List (Local × Nat)) (site : Site) (e : Option Expr) :
    (if e.isSome then some (Expr.var 0) else none).map (fun d => toByte (evalExpr n
      (bindParams 0 (procParams (.reportAndFault site e.isSome)) (e.toList.map (evalExpr n vars))) d)) =
    e.map (fun d => BitVec.ofInt 8 (evalExpr n vars d)) := by
  cases e with
  | none => rfl
  | some d => exact congrArg some (toByte_reduceTo_byte (evalExpr n vars d))

/-- From a call of `reportAndFault` the host sets the site, emits the site's message with the value, and enters the
fault state, with one step for each and one for the call (R244, R280). -/
theorem reportAndFault_path {s : State} {act : Activation} {callers : List Activation} {site : Site}
    {e : Option Expr} {rest : Prog} {k : List Todo} (hacts : s.thread.acts = act :: callers)
    (htodo : act.todo = .seq (.cons (.call (.reportAndFault site e.isSome) e.toList none) rest) :: k) :
    ∃ s₁ s₂ s₃ s₄ : State,
      hostStep s = .next s₁ ∧ hostStep s₁ = .next s₂ ∧ hostStep s₂ = .next s₃ ∧ hostStep s₃ = .next s₄ ∧
      s₂.thread.faultSite = some site ∧
      s₃.thread.emitted = s.thread.emitted ++
        [(siteMessage Config.params site, e.map (fun d => BitVec.ofInt 8 (evalExpr s.draws act.vars d)))] ∧
      fetch s₄ = some (busWord false 0x0024 0x00) ∧ inFaultState s₄.thread.acts = true ∧ s₄.twi = s.twi := by
  obtain ⟨s₁, hstep₁, ⟨htwi₁, -, -, -, -, hdraws₁, -⟩, hthread₁⟩ := hostStep_call hacts htodo rfl rfl
  obtain ⟨s₂, hstep₂, ⟨htwi₂, -, -, -, -, hdraws₂, -⟩, hthread₂⟩ :=
    hostStep_setSite (congrArg HostThread.acts hthread₁) rfl
  obtain ⟨s₃, hstep₃, ⟨htwi₃, -⟩, hthread₃⟩ := hostStep_emit (congrArg HostThread.acts hthread₂) rfl
  obtain ⟨s₄, hstep₄, ⟨htwi₄, -⟩, hthread₄⟩ :=
    hostStep_call (congrArg HostThread.acts hthread₃) rfl rfl rfl
  refine ⟨s₁, s₂, s₃, s₄, hstep₁, hstep₂, hstep₃, hstep₄, ?_, ?_, ?_, ?_, ?_⟩
  · rw [hthread₂]
  · rw [hthread₃, hthread₂, hthread₁, hdraws₂, hdraws₁, reportAndFault_value]
  · exact fetch_of_acts (congrArg HostThread.acts hthread₄) rfl
  · rw [hthread₄]
    rfl
  · rw [htwi₄, htwi₃, htwi₂, htwi₁]

/-- Settles O55: a failed check has the call of `reportAndFault` in front, whose path `reportAndFault_path` gives. -/
theorem mismatchTakesTheFaultPath : Obligations.MismatchTakesTheFaultPath := by
  intro s act rest k callers a m v site e hacts htodo
  refine ⟨fetch_of_acts hacts htodo, fun heq => ?_, fun hne => ?_⟩
  · rw [afterBus_of_acts hacts htodo, afterStmt, if_pos heq]
  · have hcall : (afterBus s).thread.acts = { act with
        todo := .seq (.cons (.call (.reportAndFault site e.isSome) e.toList none) rest) :: k } :: callers := by
      rw [afterBus_of_acts hacts htodo, afterStmt, if_neg hne]
      rfl
    obtain ⟨htwi, -, -, -, -, hdraws, -⟩ := afterBus_sameBlock s
    have hpath := reportAndFault_path hcall rfl
    rw [htwi, hdraws, afterBus_emitted] at hpath
    exact hpath

/-! ## Statements without a word (R121 to R127, R279) -/

theorem returnFrom_runs (s : State) (a : Activation) (callers : List Activation) (r : RetValue) :
    ∃ t, returnFrom s a callers r = .next t := by
  cases r <;> exact ⟨_, rfl⟩

/-- A statement in front that issues no word and is none of the two the spec refuses runs. -/
theorem controlStmt_runs {s : State} {act : Activation} {callers : List Activation} {st : Stmt} {rest : Prog}
    {k : List Todo} (hacts : s.thread.acts = act :: callers) (htodo : act.todo = .seq (.cons st rest) :: k)
    (hword : stmtWord s.draws act.vars st = none) (hbad : ¬ BadIndexNext s) (hwide : ¬ WideAddressNext s) :
    ∃ t, controlStmt s { act with todo := .seq rest :: k } callers st = .next t := by
  have hindex : ∀ a b, (st = .setb a b ∨ st = .clrb a b ∨ st = .tglb a b ∨ ∃ x, st = .tstb a b x) → b ≤ 7 :=
    fun a b hst => not_lt.1 fun hb => hbad ⟨_, _, _, _, _, a, b, hacts, htodo, hb, hst⟩
  cases st with
  | setb a b | clrb a b | tglb a b | tstb a b x =>
    have hb : b ≤ 7 := hindex a b (by simp)
    simp [stmtWord, hb] at hword
  | rd | wr | poll | expect => exact ⟨s, rfl⟩
  | assign | emit | append | setSite => exact ⟨_, rfl⟩
  | ret r => exact returnFrom_runs s _ callers r
  | call p args dst =>
    refine callProc_runs (fun e es hargs hp he => hwide ?_) callers dst
    exact ⟨_, _, _, _, p, e, es, dst, hacts, hargs ▸ htodo, hp, he⟩

/-- A host step without a word that is none of the two the spec refuses has a next state. -/
theorem hostControl_runs {s : State} (hf : fetch s = none) (hbad : ¬ BadIndexNext s) (hwide : ¬ WideAddressNext s) :
    ∃ t, hostControl s = .next t := by
  unfold hostControl
  split
  · exact ⟨s, rfl⟩
  · rename_i act callers hacts
    split
    · rename_i st rest k htodo
      exact controlStmt_runs hacts htodo ((fetch_of_acts hacts htodo).symm.trans hf) hbad hwide
    all_goals exact ⟨_, rfl⟩

/-- Settles O59: each refusal by its condition, and every other host step without a word by its statement. -/
theorem hostStatementsRun : Obligations.HostStatementsRun := by
  intro s
  refine ⟨hostStep_of_badIndexNext, hostStep_of_wideAddressNext, fun hf hbad hwide => ?_,
    fun act w x e rest k callers hacts htodo => ?_⟩
  · rw [hostStep_of_no_word hf]
    exact hostControl_runs hf hbad hwide
  · rw [hostStep_of_acts hacts htodo rfl]
    cases w <;> rfl

end Sys2Proof.Machine
end

section
/-! The timer's transactions: what its registers read, and which bytes its writes take (R130 to R144). -/

namespace Sys2Proof.Machine

open Sys2Proof.Safety

/-! ## Reads (R130, R132, R135, R137, R139, R141, R143) -/

/-- TIFR0 as read is the flags at their weights (R35, R141). -/
theorem tifr0Byte_eq (t : Tmr) :
    tifr0Byte t =
      (if t.ocfb then 0x04 else 0x00) ||| (if t.ocfa then 0x02 else 0x00) ||| (if t.tov then 0x01 else 0x00) := by
  simp only [tifr0Byte]
  generalize t.ocfb = b, t.ocfa = a, t.tov = o
  revert b a o
  decide

/-- Settles O20: each read hands over its register; TIFR0 by `tifr0Byte_eq`, TIMSK0 by the invariant. -/
theorem timerRegisterReads : Obligations.TimerRegisterReads := by
  refine ⟨rfl, rfl, rfl, rfl, rfl, rfl, rfl, fun s => ⟨rfl, rfl, rfl, rfl, rfl, rfl, ?_, ?_⟩⟩
  · rintro ⟨-, -, htimsk⟩
    exact congrArg (fun v => Host.Outcome.next (readDone s v)) htimsk
  · rw [← tifr0Byte_eq]
    rfl

/-! ## Writes of the control registers (R131, R133, R134, R144) -/

/-- A byte that fits the D pattern of no write row at its address is no instruction there (R82 step 3). -/
theorem decode_write_of_unfit {a : Addr} {v : Byte} (ha : a ∈ addressMap)
    (h : ∀ r ∈ rows, writeField r.value = true → addrField r.value = a →
      fits v (dataField r.mask) (dataField r.value) ≠ true) :
    decode (writeWord a v) = .error (reservedReason (writeWord a v)) := by
  refine decode_of_no_row (by rwa [writeWord, addrField_busWord]) fun r hr hrw => ?_
  obtain ⟨hwrite, haddr, hfits⟩ := (rowAccepts_iff hr _).1 hrw
  simp only [writeWord, writeField_busWord, addrField_busWord, dataField_busWord] at hwrite haddr hfits
  exact h r hr hwrite.symm haddr.symm hfits

/-- The word of a well-formed instruction runs that instruction (R82, R112). -/
theorem transact_encode {i : Instr} (hwf : i.wf = true) (s : State) : transact (encode i) s = exec i s :=
  transact_of_ok (decodeEncodeRoundTrip i hwf) s

/-- A byte of no row at the address of TCCR0A or TCCR0B is a reserved value (R134). -/
theorem transact_reserved {a : Addr} {v : Byte} (ha : a = addrTccr0a ∨ a = addrTccr0b)
    (h : ∀ r ∈ rows, writeField r.value = true → addrField r.value = a →
      fits v (dataField r.mask) (dataField r.value) ≠ true) (s : State) :
    transact (writeWord a v) s = .refused .reservedValue := by
  have hmap : a ∈ addressMap := by obtain rfl | rfl := ha <;> decide
  have hne : a ≠ addrTwcr ∧ a ≠ addrTimsk0 := by obtain rfl | rfl := ha <;> decide
  refine transact_of_reservedValue ?_ s
  rw [decode_write_of_unfit hmap h]
  simp [reservedReason, writeWord, hne]

/-- The write rows of TCCR0A take 0x00 and 0x02 only (R84, R131). -/
theorem tccr0a_rows : ∀ r ∈ rows, writeField r.value = true → addrField r.value = addrTccr0a →
    ∀ v : Byte, fits v (dataField r.mask) (dataField r.value) = true → v = 0x00 ∨ v = 0x02 := by decide

/-- The write rows of TCCR0B take 0x00 to 0x05 only (R84, R133). -/
theorem tccr0b_rows : ∀ r ∈ rows, writeField r.value = true → addrField r.value = addrTccr0b →
    ∀ v : Byte, fits v (dataField r.mask) (dataField r.value) = true → v ≤ 0x05 := by decide

/-- The write row of TIMSK0 takes 0x00 only (R84, R144). -/
theorem timsk0_rows : ∀ r ∈ rows, writeField r.value = true → addrField r.value = addrTimsk0 →
    ∀ v : Byte, fits v (dataField r.mask) (dataField r.value) = true → v = 0x00 := by decide

theorem wf_wrTccr0a {v : Byte} (h : v = 0x00 ∨ v = 0x02) : (Instr.wrTccr0a v).wf = true := by
  obtain rfl | rfl := h <;> rfl

theorem wf_wrTccr0b : ∀ {v : Byte}, v ≤ 0x03 → (Instr.wrTccr0b v).wf = true := by decide

theorem wf_wrTccr0bHi {v : Byte} (h : v = 0x04 ∨ v = 0x05) : (Instr.wrTccr0bHi v).wf = true := by
  obtain rfl | rfl := h <;> rfl

/-- The clock codes 0 to 5 are those of the two rows of TCCR0B (R133). -/
theorem le_five_iff : ∀ v : Byte, v ≤ 0x05 ↔ v ≤ 0x03 ∨ v = 0x04 ∨ v = 0x05 := by decide

theorem exec_wrTccr0a {v : Byte} (h : v = 0x00 ∨ v = 0x02) (s : State) :
    exec (.wrTccr0a v) s = .next (writeDone (setTmr s { s.tmr with tccr0a := v })) := by
  rw [exec, execWrTccr0a, wf_wrTccr0a h, require_true, timerWrite]

theorem exec_wrTccr0b {v : Byte} (h : v ≤ 0x03) (s : State) :
    exec (.wrTccr0b v) s = .next (writeDone (setTmr s { s.tmr with tccr0b := v })) := by
  rw [exec, execWrTccr0b, wf_wrTccr0b h, require_true, timerWrite]

theorem exec_wrTccr0bHi {v : Byte} (h : v = 0x04 ∨ v = 0x05) (s : State) :
    exec (.wrTccr0bHi v) s = .next (writeDone (setTmr s { s.tmr with tccr0b := v })) := by
  rw [exec, execWrTccr0bHi, wf_wrTccr0bHi h, require_true, timerWrite]

/-- A TCCR0B write of any admitted byte stores it, by the row of its clock code (R133). -/
theorem transact_tccr0b_of_le {v : Byte} (h : v ≤ 0x05) (s : State) :
    transact (writeWord addrTccr0b v) s = .next (writeDone (setTmr s { s.tmr with tccr0b := v })) := by
  obtain hlow | hhigh := (le_five_iff v).1 h
  · exact (transact_encode (wf_wrTccr0b hlow) s).trans (exec_wrTccr0b hlow s)
  · exact (transact_encode (wf_wrTccr0bHi hhigh) s).trans (exec_wrTccr0bHi hhigh s)

/-- A TIMSK0 write of any byte but 0x00 would enable an interrupt (R144, R276). -/
theorem transact_timsk0_of_ne {v : Byte} (h : v ≠ 0x00) (s : State) :
    transact (writeWord addrTimsk0 v) s = .refused .interruptEnable := by
  refine transact_of_interruptEnable ?_ s
  rw [decode_write_of_unfit (by decide) fun r hr hw ha hfits => h (timsk0_rows r hr hw ha v hfits)]
  have hne : addrTimsk0 ≠ addrTwcr := by decide
  simpa [reservedReason, writeWord, hne] using h

/-- Settles O21: a byte of a row is stored by that row's write, and the rows take no other byte. -/
theorem timerControlBytes : Obligations.TimerControlBytes := by
  intro s v
  constructor
  · split
    case isTrue h => exact (transact_encode (wf_wrTccr0a h) s).trans (exec_wrTccr0a h s)
    case isFalse h => exact transact_reserved (.inl rfl) (fun r hr hw ha hfits => h (tccr0a_rows r hr hw ha v hfits)) s
  · split
    case isTrue h => exact transact_tccr0b_of_le h s
    case isFalse h => exact transact_reserved (.inr rfl) (fun r hr hw ha hfits => h (tccr0b_rows r hr hw ha v hfits)) s

/-- Settles O22: each write completes on the bytes of its row, and TIMSK0 has the row of 0x00 only. -/
theorem timerControlWrites : Obligations.TimerControlWrites := fun s _ =>
  ⟨rfl, rfl, rfl, rfl, fun h => exec_wrTccr0a h s, fun h => exec_wrTccr0b h s, fun h => exec_wrTccr0bHi h s, rfl,
    fun h => transact_timsk0_of_ne h s⟩

/-! ## Writes of the count, the thresholds and the flags (R136, R138, R140, R142) -/

/-- Settles O23: these writes have no check, so they complete by definition. -/
theorem timerDataWrites : Obligations.TimerDataWrites := fun _ _ => ⟨rfl, rfl, rfl, rfl, rfl, rfl⟩

/-- A TIFR0 write by cases of the byte's bits: a 1 clears its flag, a 0 leaves it (R142). -/
theorem clearTifr0_eq (v : Byte) (t : Tmr) :
    clearTifr0 v t = { t with
      tov := if v.getLsbD 0 then false else t.tov
      ocfa := if v.getLsbD 1 then false else t.ocfa
      ocfb := if v.getLsbD 2 then false else t.ocfb } := by
  simp [clearTifr0, Bool.and_comm]

/-- Settles O24: the write completes with the flags that `clearTifr0_eq` gives. -/
theorem tifr0IsWriteOneToClear : Obligations.Tifr0IsWriteOneToClear := fun s v =>
  ⟨rfl, congrArg (fun t => Host.Outcome.next (writeDone (setTmr s t))) (clearTifr0_eq v s.tmr)⟩

end Sys2Proof.Machine
end

section
/-! The agents that have a step (R6, R146), the tick of the timer clause by clause (R145), and runs of ticks up to a
compare match (R147, R148). -/

namespace Sys2Proof.Machine

open Sys2Proof.Safety

/-! ## Who has a step, and who moves (R6, R7, R146, R210, R303) -/

/-- The clock is selected where one of the three code bits is 1 (R38). -/
theorem timerRuns_iff (t : Tmr) : timerRuns t = true ↔ t.tccr0b &&& 0x07 ≠ 0x00 := by
  rw [timerRuns]
  generalize t.tccr0b = b
  revert b
  decide

theorem hostEnabled_iff (s : State) : hostEnabled s = true ↔ ∃ act ∈ s.thread.acts, act.todo ≠ [] := by
  simp [hostEnabled]

/-- The agent of the turn moves where it has a step (R6; log 1). -/
theorem mover_of_turn {s : State} (h : enabled s.turn s = true) : mover s = some s.turn := if_pos h

/-- Where the agent of the turn has no step, HOST or TCLK moves if one has (R7; log 1). -/
theorem mover_eq_none_of_not_turn {s : State} (h : enabled s.turn s = false) :
    mover s = none ↔ enabled .host s = false ∧ enabled .tclk s = false := by
  simp [mover, h]

/-- Nobody moves exactly where the fair agents have no step, and BUS has none or not the turn (R7; log 1). -/
theorem mover_eq_none_iff (s : State) :
    mover s = none ↔
      enabled .host s = false ∧ enabled .tclk s = false ∧ (enabled .bus s = false ∨ s.turn ≠ .bus) := by
  cases hturn : enabled s.turn s with
  | true =>
    rw [mover_of_turn hturn]
    refine iff_of_false (by simp) fun ⟨hhost, htclk, hbus⟩ => ?_
    generalize s.turn = a at hturn hbus
    cases a with
    | host => exact absurd (hhost.symm.trans hturn) (by decide)
    | tclk => exact absurd (htclk.symm.trans hturn) (by decide)
    | bus => exact hbus.elim (fun h => absurd (h.symm.trans hturn) (by decide)) (· rfl)
    | pins => exact absurd hturn (by simp [enabled])
  | false =>
    have hbus : enabled .bus s = false ∨ s.turn ≠ .bus := by
      by_cases ht : s.turn = .bus
      · exact .inl (ht ▸ hturn)
      · exact .inr ht
    rw [mover_eq_none_of_not_turn hturn]
    simp only [hbus, and_true]

/-- Settles O12: each agent by its own condition, and who moves by whether the agent of the turn has a step. -/
theorem enabledAgents : Obligations.EnabledAgents := fun s =>
  ⟨timerRuns_iff s.tmr, isBusy_iff s.twi, hostEnabled_iff s, rfl, mover_of_turn, fun _ => mover_enabled,
    mover_eq_none_iff s⟩

/-! ## The tick (R145) -/

@[simp] theorem tick_ocfa (d : Bool) (t : Tmr) :
    (tick d t).ocfa = (t.ocfa || (!t.cmBlock && t.tcnt == t.ocra)) := rfl
@[simp] theorem tick_ocfb (d : Bool) (t : Tmr) :
    (tick d t).ocfb = (t.ocfb || (!t.cmBlock && t.tcnt == t.ocrb)) := rfl
@[simp] theorem tick_tov (d : Bool) (t : Tmr) :
    (tick d t).tov = (t.tov || (t.tcnt == 0xFF && tickCount d t == 0x00)) := rfl

/-- CTC is WGM02 = 0 and WGM01:0 = 0b10 (R38). -/
theorem ctcMode_iff (t : Tmr) : ctcMode t = true ↔ t.tccr0b.getLsbD 3 = false ∧ t.tccr0a &&& 0x03 = 0x02 := by
  have hsplit : ∀ (x : BitVec 1) (y : BitVec 2), (x ++ y == (0b010 : BitVec 3)) = true ↔ x = 0 ∧ y = 0b10 := by decide
  have hwgm02 : ∀ b : Byte, b.extractLsb' 3 1 = 0 ↔ b.getLsbD 3 = false := by decide
  have hwgm01 : ∀ a : Byte, a.extractLsb' 0 2 = 0b10 ↔ a &&& 0x03 = 0x02 := by decide
  rw [ctcMode, wgm, hsplit, hwgm02, hwgm01]

/-- In CTC a match that is not blocked clears the count, whatever the draw. -/
theorem tickCount_match {t : Tmr} (hctc : ctcMode t = true) (hmatch : t.tcnt = t.ocra) (hfree : t.cmBlock = false)
    (d : Bool) : tickCount d t = 0x00 := by
  simp [tickCount, hctc, hmatch, hfree]

/-- In CTC a blocked match clears the count or counts on, as the draw says (D15). -/
theorem tickCount_blocked_match {t : Tmr} (hctc : ctcMode t = true) (hmatch : t.tcnt = t.ocra)
    (hblock : t.cmBlock = true) (d : Bool) : tickCount d t = if d then 0x00 else t.tcnt + 1 := by
  cases d <;> simp [tickCount, hctc, hmatch, hblock]

/-- Without a match in CTC the count goes on, and wraps. -/
theorem tickCount_no_match {t : Tmr} (h : ¬ (ctcMode t = true ∧ t.tcnt = t.ocra)) (d : Bool) :
    tickCount d t = t.tcnt + 1 := by
  simp only [tickCount, Bool.and_eq_true, beq_iff_eq, if_neg h]

/-- Settles O25: the flags by the fields of `tick`, the count by the three lemmas on `tickCount`. -/
theorem timerTick : Obligations.TimerTick := by
  intro s m t ctc
  have hctc : ctcMode m = true ↔ ctc := ctcMode_iff m
  refine ⟨timerRuns_iff m, rfl, ?_, ?_, ?_, fun h hmatch hfree => ?_, fun h hmatch hblock => ?_, fun h => ?_⟩
  · simp [t, m]
  · simp [t, m]
  · simp [t, m]
  · exact tickCount_match (hctc.2 h) hmatch hfree _
  · exact tickCount_blocked_match (hctc.2 h) hmatch hblock _
  · exact tickCount_no_match (by rwa [hctc]) _

/-! ## Ticks in sequence -/

@[simp] theorem ticks_nil (t : Tmr) : ticks [] t = t := rfl

@[simp] theorem ticks_concat (ds : List Bool) (d : Bool) (t : Tmr) : ticks (ds ++ [d]) t = tick d (ticks ds t) := by
  simp [ticks]

@[simp] theorem ticks_ocra (ds : List Bool) (t : Tmr) : (ticks ds t).ocra = t.ocra := by
  induction ds using List.reverseRecOn with
  | nil => rfl
  | append_singleton ds d ih => rw [ticks_concat, tick_ocra, ih]

@[simp] theorem ctcMode_ticks (ds : List Bool) (t : Tmr) : ctcMode (ticks ds t) = ctcMode t := by
  induction ds using List.reverseRecOn with
  | nil => rfl
  | append_singleton ds d ih => rw [ticks_concat, ctcMode_tick, ih]

/-- Only the first tick after a write of the count can be blocked (R136, R145). -/
theorem ticks_cmBlock {ds : List Bool} {t : Tmr} (h : ds ≠ [] ∨ t.cmBlock = false) : (ticks ds t).cmBlock = false := by
  induction ds using List.reverseRecOn with
  | nil => simpa using h
  | append_singleton ds d ih => rw [ticks_concat, tick_cmBlock]

/-- A sequence of `n + 1` draws is `n` draws and a last one. -/
theorem exists_concat_of_length {ds : List Bool} {n : Nat} (h : ds.length = n + 1) :
    ∃ es d, ds = es ++ [d] ∧ es.length = n := by
  cases ds using List.reverseRecOn with
  | nil => cases h
  | append_singleton es d => exact ⟨es, d, rfl, by simpa using h⟩

/-! ## Counting up to a compare match (R147, R148) -/

/-- Counting up from `t`, the count is not the threshold before the `n`-th tick. -/
def NoMatchBefore (n : Nat) (t : Tmr) : Prop := ∀ k < n, (t.tcnt.toNat + k) % 256 ≠ t.ocra.toNat

/-- Until it meets the threshold the count is that of the ticks, modulo 256, and the flag stays as it was; in every
mode and whatever the draws. -/
theorem ticks_of_noMatchBefore {ds : List Bool} {t : Tmr} (h : NoMatchBefore ds.length t) :
    (ticks ds t).tcnt.toNat = (t.tcnt.toNat + ds.length) % 256 ∧ (ticks ds t).ocfa = t.ocfa := by
  induction ds using List.reverseRecOn with
  | nil => exact ⟨(Nat.mod_eq_of_lt t.tcnt.isLt).symm, rfl⟩
  | append_singleton ds d ih =>
    rw [List.length_append, List.length_singleton] at h ⊢
    obtain ⟨hcount, hflag⟩ := ih fun k hk => h k (by omega)
    have hne : (ticks ds t).tcnt ≠ (ticks ds t).ocra := by
      rw [ticks_ocra, ne_eq, ← BitVec.toNat_inj, hcount]
      exact h ds.length (by omega)
    rw [ticks_concat]
    constructor
    · have hone : (1 : Byte).toNat = 1 := rfl
      rw [tick_tcnt, tickCount_no_match fun hm => hne hm.2, BitVec.toNat_add, hcount, hone]
      omega
    · rw [tick_ocfa, hflag, beq_false_of_ne hne, Bool.and_false, Bool.or_false]

/-- In CTC the tick at which the count first meets the threshold, not blocked, sets the flag and clears the count. -/
theorem ticks_match {ds : List Bool} {t : Tmr} {n : Nat} (hlen : ds.length = n + 1) (hctc : ctcMode t = true)
    (h : NoMatchBefore n t) (hmeet : (t.tcnt.toNat + n) % 256 = t.ocra.toNat) (hblock : t.cmBlock = true → n ≠ 0) :
    (ticks ds t).ocfa = true ∧ (ticks ds t).tcnt = 0x00 := by
  obtain ⟨es, d, rfl, rfl⟩ := exists_concat_of_length hlen
  obtain ⟨hcount, -⟩ := ticks_of_noMatchBefore h
  have hmatch : (ticks es t).tcnt = (ticks es t).ocra := by
    rw [ticks_ocra, ← BitVec.toNat_inj, hcount, hmeet]
  have hfree : (ticks es t).cmBlock = false := by
    refine ticks_cmBlock ?_
    cases hb : t.cmBlock with
    | false => exact .inr rfl
    | true => exact .inl (List.ne_nil_of_length_pos (Nat.pos_of_ne_zero (hblock hb)))
  rw [ticks_concat]
  exact ⟨by simp [hmatch, hfree], tickCount_match (by rwa [ctcMode_ticks]) hmatch hfree d⟩

/-- Settles O26: from 0 the count first meets the threshold after as many ticks as the threshold says. -/
theorem compareMatchPeriod : Obligations.CompareMatchPeriod := by
  intro t ds hctc hzero hflag hblock
  have hstart : t.tcnt.toNat = 0 := by rw [hzero]; rfl
  have hbyte : t.ocra.toNat < 256 := t.ocra.isLt
  have hup : ∀ n ≤ t.ocra.toNat, NoMatchBefore n t := fun n hn k hk => by omega
  refine ⟨fun hlen => ?_, fun hlen => ?_⟩
  · obtain ⟨hcount, hsame⟩ := ticks_of_noMatchBefore (hup _ hlen)
    exact ⟨hsame.trans hflag, by omega⟩
  · have hpos : t.cmBlock = true → t.ocra.toNat ≠ 0 := fun hb h0 => hblock hb (BitVec.eq_of_toNat_eq h0)
    obtain ⟨hset, hclear⟩ := ticks_match hlen hctc (hup _ le_rfl) (by omega) hpos
    have hne : ds ≠ [] := List.ne_nil_of_length_eq_add_one hlen
    exact ⟨hset, hclear, ticks_cmBlock (.inl hne), (ctcMode_ticks ds t).trans hctc, ticks_ocra ds t⟩

/-- The tick that takes the count from 0xFF to 0x00 sets TOV0 (R145). -/
theorem ticks_wrap {ds : List Bool} {t : Tmr} {n : Nat} (hlen : ds.length = n + 1) (h : NoMatchBefore (n + 1) t)
    (htop : t.tcnt.toNat + n = 255) : (ticks ds t).tcnt = 0x00 ∧ (ticks ds t).tov = true := by
  have hzero : (ticks ds t).tcnt = 0x00 := by
    obtain ⟨hcount, -⟩ := ticks_of_noMatchBefore (hlen ▸ h)
    refine BitVec.eq_of_toNat_eq (hcount.trans ?_)
    rw [hlen, ← Nat.add_assoc, htop]
    rfl
  refine ⟨hzero, ?_⟩
  obtain ⟨es, d, rfl, rfl⟩ := exists_concat_of_length hlen
  obtain ⟨hcount, -⟩ := ticks_of_noMatchBefore (t := t) (ds := es) fun k hk => h k (by omega)
  have hff : (ticks es t).tcnt = 0xFF := BitVec.eq_of_toNat_eq (hcount.trans (by rw [htop]; rfl))
  rw [ticks_concat] at hzero ⊢
  rw [tick_tov, hff, ← tick_tcnt, hzero]
  simp

/-- Settles O27: from above the threshold the count first meets it after the wrap, `256 - tcnt + ocra` ticks on. -/
theorem countAboveTheThreshold : Obligations.CountAboveTheThreshold := by
  intro t ds hctc habove hflag
  have hbyte : t.tcnt.toNat < 256 := t.tcnt.isLt
  have hup : ∀ n ≤ 256 - t.tcnt.toNat + t.ocra.toNat, NoMatchBefore n t := fun n hn k hk => by omega
  refine ⟨fun hlen => ?_, fun hlen => ?_, fun hle hlen => ?_, fun hlen => ?_, fun hlen => ?_⟩
  · obtain ⟨hcount, -⟩ := ticks_of_noMatchBefore (hup ds.length (by omega))
    omega
  · exact ticks_wrap (n := 255 - t.tcnt.toNat) (by omega) (hup _ (by omega)) (by omega)
  · obtain ⟨hcount, -⟩ := ticks_of_noMatchBefore (hup ds.length hlen)
    omega
  · obtain ⟨-, hsame⟩ := ticks_of_noMatchBefore (hup ds.length (by omega))
    exact hsame.trans hflag
  · exact ticks_match (n := 256 - t.tcnt.toNat + t.ocra.toNat) (by omega) hctc (hup _ le_rfl) (by omega)
      fun _ => by omega

end Sys2Proof.Machine
end

section
/-! Port B: what its transactions read and write, the stale mask after a transaction, and the drive of its pins (R160
to R168). -/

namespace Sys2Proof.Machine

open Sys2Proof.Safety

/-! ## Reads (R160, R162, R164) -/

/-- Settles O15: both reads hand over the stored latch, by the definition of `readDone`. -/
theorem portLatchReads : Obligations.PortLatchReads := ⟨rfl, rfl, fun _ => ⟨rfl, rfl⟩⟩

/-- A bit of PINB as read, by the three cases of R162 in their order. -/
theorem getLsbD_pinLevels (g : Gpio) (draw : Byte) {i : Nat} (hi : i < 8) :
    (pinLevels g draw).getLsbD i =
      if g.stale.getLsbD i then draw.getLsbD i
      else if g.ddr.getLsbD i then g.port.getLsbD i
      else draw.getLsbD i := by
  have hknown : (pinKnown g).getLsbD i = (g.ddr.getLsbD i && !g.stale.getLsbD i) := by simp [pinKnown, hi]
  have hbit : (pinLevels g draw).getLsbD i =
      (g.port.getLsbD i && (pinKnown g).getLsbD i || draw.getLsbD i && !(pinKnown g).getLsbD i) := by
    simp [pinLevels, hi]
  rw [hbit, hknown]
  cases g.stale.getLsbD i with
  | true => simp
  | false => cases g.ddr.getLsbD i <;> simp

/-- Settles O16: the byte is `pinLevels` with the drawn byte, and its bits are those of `getLsbD_pinLevels`. -/
theorem pinbReadsLevelsOrDraws : Obligations.PinbReadsLevelsOrDraws :=
  ⟨rfl, fun s => ⟨pinLevels s.gpio (drawnByte s), rfl, fun _ hi => getLsbD_pinLevels s.gpio (drawnByte s) hi⟩⟩

/-! ## Writes (R161, R163, R165) -/

/-- Settles O17: these writes have no check, so they complete by definition. -/
theorem portWrites : Obligations.PortWrites := fun _ _ => ⟨rfl, rfl, rfl, rfl, rfl, rfl⟩

/-! ## The stale mask (R167) -/

/-- The writes of Port B are those of DDRB, PORTB and PINB (R62). -/
theorem port_write_of_unit {i : Instr} (hunit : unitOf i = .gpio) (hwrite : isRead i = false) :
    ∃ v, i = .wrDdrb v ∨ i = .wrPortb v ∨ i = .wrPinb v := by
  cases i with
  | wrDdrb v => exact ⟨v, .inl rfl⟩
  | wrPortb v => exact ⟨v, .inr (.inl rfl)⟩
  | wrPinb v => exact ⟨v, .inr (.inr rfl)⟩
  | rdPinb | rdDdrb | rdPortb => exact absurd hwrite (by decide)
  | _ => cases hunit

/-- Every transaction but a port write leaves the latches and clears the stale mask (R167). -/
theorem Completes.gpio_of_no_port_write {i : Instr} {s t : State} (h : Completes i s t)
    (hno : ¬ ∃ v, i = .wrDdrb v ∨ i = .wrPortb v ∨ i = .wrPinb v) : t.gpio = { s.gpio with stale := 0x00 } := by
  cases h with
  | read | drawnRead | tmr | twi => rfl
  | gpio _ hunit hwrite => exact absurd (port_write_of_unit hunit hwrite) hno

/-- After a port write the stale mask is the bits of the latches it changed (R167). -/
theorem stale_of_port_write {i : Instr} {v : Byte} {s t : State}
    (hi : i = .wrDdrb v ∨ i = .wrPortb v ∨ i = .wrPinb v) (h : exec i s = .next t) :
    t.gpio.stale = (s.gpio.ddr ^^^ t.gpio.ddr) ||| (s.gpio.port ^^^ t.gpio.port) := by
  obtain ⟨-, -, -, hddr, hport, hpin⟩ := portWrites s v
  obtain rfl | rfl | rfl := hi
  · cases hddr.symm.trans h
    simp
  · cases hport.symm.trans h
    simp
  · cases hpin.symm.trans h
    simp

/-- Settles O18: a port write by `stale_of_port_write`; any other transaction changes neither latch and clears the mask;
BUS and TCLK leave the port. -/
theorem staleMaskAfterEveryTransaction : Obligations.StaleMaskAfterEveryTransaction := by
  refine ⟨fun i s t h => ?_, fun s => ⟨congrArg Gpio.stale (busStep_gpio s), congrArg Gpio.stale (tclkStep_gpio s)⟩⟩
  have hother (hno : ¬ ∃ v, i = .wrDdrb v ∨ i = .wrPortb v ∨ i = .wrPinb v) :
      t.gpio = { s.gpio with stale := 0x00 } := (exec_completes h).gpio_of_no_port_write hno
  refine ⟨?_, fun hno => congrArg Gpio.stale (hother (by simpa using hno))⟩
  by_cases hw : ∃ v, i = .wrDdrb v ∨ i = .wrPortb v ∨ i = .wrPinb v
  · obtain ⟨v, hi⟩ := hw
    exact stale_of_port_write hi h
  · simp [hother hw]

/-! ## The drive of a pin and the LED (R166, R168) -/

/-- An output pin drives the level of its port bit (R166). -/
theorem drive_of_output {g : Gpio} {i : Nat} (h : g.ddr.getLsbD i = true) :
    drive g i = if g.port.getLsbD i then .driveHigh else .driveLow := by
  cases hp : g.port.getLsbD i <;> simp [drive, h, hp]

/-- An input pin is pulled up where its port bit is set, and floats where it is not (R166). -/
theorem drive_of_input {g : Gpio} {i : Nat} (h : g.ddr.getLsbD i = false) :
    drive g i = if g.port.getLsbD i then .pullUp else .hiZ := by
  cases hp : g.port.getLsbD i <;> simp [drive, h, hp]

/-- The LED is lit where its pin drives high (R168). -/
theorem ledLit_iff (p : Params) (g : Gpio) : ledLit p g = true ↔ drive g p.ledBit = .driveHigh := beq_iff_eq

/-- Settles O19, by the direction of the pin. -/
theorem pinDriveAndLed : Obligations.PinDriveAndLed := by
  intro g i
  have hled : ledLit Config.params g = true ↔ drive g 5 = .driveHigh := ledLit_iff Config.params g
  cases hddr : g.ddr.getLsbD i with
  | true =>
    rw [drive_of_output hddr]
    cases g.port.getLsbD i <;> simp [hled]
  | false =>
    rw [drive_of_input hddr]
    cases g.port.getLsbD i <;> simp [hled]

end Sys2Proof.Machine
end

section
/-! The registers of the TWI unit as read and written (R180 to R186), and what BUS does to it (R210 to R215). -/

namespace Sys2Proof.Machine

open Sys2Proof.Safety

/-! ## Reads (R180, R182, R184, R186) -/

/-- TWSR as read is the status and the prescaler bits at their places (R26, R182). -/
theorem twsrByte_eq (t : Twi) : twsrByte t = (t.tws.setWidth 8 <<< 3) ||| t.twps.setWidth 8 := by
  simp only [twsrByte]
  generalize t.tws = status, t.twps = prescaler
  revert status prescaler
  decide

/-- TWCR as read is its bits at their weights (R23, R186). -/
theorem twcrByte_eq (t : Twi) :
    twcrByte t =
      (if t.int then 0x80 else 0x00) ||| (if t.ea then 0x40 else 0x00) ||| (if t.sta then 0x20 else 0x00) |||
      (if t.sto then 0x10 else 0x00) ||| (if t.wc then 0x08 else 0x00) ||| (if t.en then 0x04 else 0x00) |||
      (if t.ie then 0x01 else 0x00) := by
  simp only [twcrByte]
  generalize t.int = int, t.ea = ea, t.sta = sta, t.sto = sto, t.wc = wc, t.en = en, t.ie = ie
  revert int ea sta sto wc en ie
  decide

/-- Settles O28: each read hands over its register, TWSR by `twsrByte_eq` and TWCR by `twcrByte_eq`. -/
theorem twiRegisterReads : Obligations.TwiRegisterReads := by
  refine ⟨rfl, rfl, rfl, fun s => ⟨rfl, ?_, ?_⟩⟩
  · rw [← twsrByte_eq]
    rfl
  · rw [← twcrByte_eq]
    rfl

theorem isPending_iff (t : Twi) : isPending t = true ↔ ∃ op, t.phase = .pending op :=
  ⟨exists_op_of_isPending, fun ⟨_, hp⟩ => by rw [isPending, hp]⟩

/-- Settles O29, by whether an operation is pending. -/
theorem twdrReads : Obligations.TwdrReads :=
  ⟨rfl, fun s => ⟨fun hp => if_pos ((isPending_iff s.twi).2 hp),
    fun hp => if_neg (mt (isPending_iff s.twi).1 (not_exists.2 hp))⟩⟩

/-! ## Writes (R181, R183, R185) -/

/-- Settles O30: these writes have no check, so they complete by definition. -/
theorem twbrAndTwsrWrites : Obligations.TwbrAndTwsrWrites := fun _ _ => ⟨rfl, rfl, rfl, rfl⟩

theorem execWrTwdr_of_off {s : State} (h : s.twi.phase = .off) (v : Byte) :
    execWrTwdr v s = .refused .twiDisabledAccess := by
  simp [execWrTwdr, h]

theorem execWrTwdr_of_enabled {s : State} (h : s.twi.phase ≠ .off) (v : Byte) :
    execWrTwdr v s =
      twiWrite s (if s.twi.int then { s.twi with twdr := v, wc := false } else { s.twi with wc := true }) := by
  rw [execWrTwdr, bne_iff_ne.2 h, require_true]

/-- Settles O31, by whether the unit is off and by TWINT. -/
theorem twdrWrites : Obligations.TwdrWrites := by
  refine fun s v => ⟨rfl, fun hoff => execWrTwdr_of_off hoff v, fun hon hint => ?_, fun hon hint => ?_⟩
  · exact (execWrTwdr_of_enabled hon v).trans (by rw [hint]; rfl)
  · exact (execWrTwdr_of_enabled hon v).trans (by rw [hint]; rfl)

/-! ## The outcomes of an operation (R210, R211) -/

/-- The statuses that can be chosen are the outcomes, each at its own index (R210, R211). -/
theorem exists_chosenStatus_iff (op : TwiOp) (st : Byte) :
    (∃ n, chosenStatus op n = st) ↔ st ∈ statusOutcomes op := by
  constructor
  · rintro ⟨n, rfl⟩
    exact chosenStatus_mem op n
  · intro hst
    obtain ⟨n, hn, rfl⟩ := List.getElem_of_mem hst
    exact ⟨n, by rw [chosenStatus, Nat.mod_eq_of_lt hn, List.getD_eq_getElem _ _ hn]⟩

/-- Settles O42: the rows of the table are the outcomes, those of an address phase by its direction bit. -/
theorem everyStatusOutcomeIsPossible : Obligations.EveryStatusOutcomeIsPossible := by
  intro op st
  rw [exists_chosenStatus_iff]
  cases op with
  | start | repStart | stopStart | tx | rxAck | rxNack => rfl
  | sla a => cases ha : a.getLsbD 0 <;> simp only [statusOutcomes, successStatus, nackStatus, ha] <;> rfl

/-- The statuses of a received byte are reported by the receive operations only (R211). -/
theorem receives_of_status {op : TwiOp} {st : Byte} (h : st ∈ statusOutcomes op) (hst : st = 0x50 ∨ st = 0x58) :
    op = .rxAck ∨ op = .rxNack := by
  cases op with
  | rxAck => exact .inl rfl
  | rxNack => exact .inr rfl
  | start | repStart | stopStart | tx =>
    obtain rfl | rfl := hst <;> simp [statusOutcomes, successStatus, nackStatus] at h
  | sla a =>
    obtain rfl | rfl := hst <;> cases ha : a.getLsbD 0 <;>
      simp [statusOutcomes, successStatus, nackStatus, ha, -BitVec.getLsbD_eq_getElem] at h

/-! ## Completion and the execution of a STOP (R210, R212, R214, R215) -/

theorem busStep_of_pending {s : State} {op : TwiOp} (h : s.twi.phase = .pending op) :
    busStep s = advanceDraws (setTwi s (complete op (chosenStatus op (drawnIndex s)) (drawnByte s) s.twi)) := by
  simp only [busStep, h]

theorem busStep_of_stopping {s : State} (h : s.twi.phase = .stopping) :
    busStep s = setTwi s (stopExecuted s.twi) := by
  simp only [busStep, h]

/-- The status in its 5-bit form is the byte shifted (R12). -/
theorem statusField_eq : ∀ st : Byte, statusField st = (st >>> 3).setWidth 5 := by decide

/-- A completion with one of its operation's outcomes, field by field as R210, R214 and R215 say. -/
theorem complete_eq {op : TwiOp} {st : Byte} (h : st ∈ statusOutcomes op) (b : Byte) (t : Twi) :
    complete op st b t = { t with
      tws := (st >>> 3).setWidth 5, int := true, phase := .held
      sto := if op = .stopStart then false else t.sto
      twdr := if ((op = .rxAck ∨ op = .rxNack) ∧ (st = 0x50 ∨ st = 0x58)) ∨ st = 0x38 ∨ st = 0x00 then b else t.twdr
      owns := if st = 0x38 then false else if st = 0x00 then t.owns else true } := by
  have hsto : (t.sto && op != .stopStart) = if op = .stopStart then false else t.sto := by
    by_cases hop : op = .stopStart <;> simp [hop]
  have hreceive : ((op = .rxAck ∨ op = .rxNack) ∧ (st = 0x50 ∨ st = 0x58)) ↔ (st = 0x50 ∨ st = 0x58) :=
    and_iff_right_of_imp (receives_of_status h)
  simp only [hreceive]
  simp [complete, completedTwdr, completedOwns, statusField_eq, hsto, or_assoc]

/-- Settles O41: the status is an outcome of the operation, and the completion is that of `complete_eq`. -/
theorem busCompletion : Obligations.BusCompletion := by
  intro s op hp
  refine ⟨(everyStatusOutcomeIsPossible op _).1 ⟨_, rfl⟩, ?_⟩
  rw [busStep_of_pending hp, complete_eq (chosenStatus_mem op _)]
  rfl

/-- Settles O43: BUS executes the STOP by its rule; a write that clears TWSTO while BUS has to move is a DISABLE. -/
theorem stopExecution : Obligations.StopExecution := by
  refine ⟨fun s hp => busStep_of_stopping hp, fun i s t hinv hen hsto h hclear => ?_⟩
  obtain hsame | hw := (exec_completes h).twi_cases
  · exact absurd (hsto.symm.trans (hsame ▸ hclear)) (by decide)
  · obtain ⟨-, hdisable⟩ := hw.sto_cleared hsto hclear
    exact hdisable (isBusy_of_sto hinv hen hsto)

end Sys2Proof.Machine
end

section
/-! The TWCR commands (R187 to R198): the class of a command's byte, the refusals of a TWCR write, and what the rule of
each command says of a unit that is not busy. -/

namespace Sys2Proof.Machine

open Sys2Proof.Safety

/-! ## The class of a command's byte (R84, R85) -/

theorem twcrClass_disable : ∀ {v : Byte}, v &&& 0x35 = 0x00 → twcrClass v = .disable := by decide
theorem twcrClass_config : ∀ {v : Byte}, v &&& 0xB5 = 0x04 → twcrClass v = .config := by decide
theorem twcrClass_start : ∀ {v : Byte}, v &&& 0xB5 = 0xA4 → twcrClass v = .start := by decide
theorem twcrClass_stopStart : ∀ {v : Byte}, v &&& 0xB5 = 0xB4 → twcrClass v = .stopStart := by decide
theorem twcrClass_stop : ∀ {v : Byte}, v &&& 0xB5 = 0x94 → twcrClass v = .stop := by decide
theorem twcrClass_contAck : ∀ {v : Byte}, v &&& 0xF5 = 0xC4 → twcrClass v = .contAck := by decide
theorem twcrClass_contNack : ∀ {v : Byte}, v &&& 0xF5 = 0x84 → twcrClass v = .contNack := by decide

theorem twcrClass_eq_interruptEnable_iff : ∀ v : Byte, twcrClass v = .interruptEnable ↔ v.getLsbD 0 = true := by
  decide

theorem twcrClass_eq_reserved_iff : ∀ v : Byte, twcrClass v = .reserved ↔ v.getLsbD 0 = false ∧
    ((v.getLsbD 2 = false ∧ (v.getLsbD 5 = true ∨ v.getLsbD 4 = true)) ∨
     (v.getLsbD 2 = true ∧ v.getLsbD 7 = false ∧ (v.getLsbD 5 = true ∨ v.getLsbD 4 = true))) := by decide

theorem mem_admittedClasses {cls : TwcrClass} (hint : cls ≠ .interruptEnable) (hres : cls ≠ .reserved) :
    cls ∈ admittedClasses := by
  cases cls with
  | interruptEnable => exact absurd rfl hint
  | reserved => exact absurd rfl hres
  | disable | config | start | stop | stopStart | contAck | contNack => decide

/-- DISABLE is the admitted class that writes a 0 to TWEN (R85). -/
theorem twcrClass_eq_disable_iff : ∀ v : Byte, twcrClass v ∈ admittedClasses →
    (twcrClass v = .disable ↔ v.getLsbD 2 = false) := by decide

/-- The field update of R188 by the class of the byte: a command that is no CONFIG clears TWINT. -/
theorem commandFields_of_class {cls : TwcrClass} {v : Byte} (hc : twcrClass v = cls)
    (hcls : cls ∈ [.start, .stop, .stopStart, .contAck, .contNack]) (t : Twi) :
    commandFields v t = { t with
      ea := v.getLsbD 6, sta := decide (cls ∈ [.start, .stopStart]), sto := decide (cls ∈ [.stop, .stopStart])
      en := true, ie := false, int := false } := by
  have hbits : ∀ v : Byte, twcrClass v ∈ [.start, .stop, .stopStart, .contAck, .contNack] →
      v.getLsbD 7 = true ∧ v.getLsbD 5 = decide (twcrClass v ∈ [.start, .stopStart]) ∧
      v.getLsbD 4 = decide (twcrClass v ∈ [.stop, .stopStart]) := by decide
  subst hc
  obtain ⟨hint, hsta, hsto⟩ := hbits v hcls
  rw [commandFields, hint, hsta, hsto, Bool.not_true, Bool.and_false]

/-- The field update of a CONFIG leaves TWINT (R188, R190). -/
theorem commandFields_of_config {v : Byte} (hc : twcrClass v = .config) (t : Twi) :
    commandFields v t = { t with ea := v.getLsbD 6, sta := false, sto := false, en := true, ie := false } := by
  have hbits : ∀ v : Byte, twcrClass v = .config →
      v.getLsbD 7 = false ∧ v.getLsbD 5 = false ∧ v.getLsbD 4 = false := by decide
  obtain ⟨hint, hsta, hsto⟩ := hbits v hc
  rw [commandFields, hint, hsta, hsto, Bool.not_false, Bool.and_true]

/-! ## The refusals of a TWCR write (R187, R275) -/

section

variable {cls : TwcrClass} {v : Byte} {f : Twi → Option Twi} {s : State}

theorem twcrWrite_busy (hc : twcrClass v = cls) (hint : cls ≠ .interruptEnable) (hdis : cls ≠ .disable)
    (hb : isBusy s.twi = true) : twcrWrite cls v f s = .refused .twiBusy := by
  have hadm : (cls != .interruptEnable) = true := bne_iff_ne.2 hint
  have hcheck : (!isBusy s.twi || cls == .disable) = false := by simpa [hb] using hdis
  simp [twcrWrite, hc, hadm, hcheck]

theorem twcrWrite_illegal (hc : twcrClass v = cls) (hint : cls ≠ .interruptEnable)
    (hb : isBusy s.twi = false ∨ cls = .disable) (hf : f s.twi = none) :
    twcrWrite cls v f s = .refused .twiIllegalCommand := by
  have hadm : (cls != .interruptEnable) = true := bne_iff_ne.2 hint
  have hcheck : (!isBusy s.twi || cls == .disable) = true := by simpa using hb
  simp [twcrWrite, hc, hadm, hcheck, hf]

end

/-- A TWCR write of an admitted byte runs the rule of the byte's class (R85, R187). -/
theorem transact_twcr_of_admitted {v : Byte} (h : twcrClass v ∈ admittedClasses) (s : State) :
    ∃ f, transact (writeWord addrTwcr v) s = twcrWrite (twcrClass v) v f s := by
  rw [transact, decode_twcr]
  generalize twcrClass v = cls at h
  cases cls with
  | disable => exact ⟨fun t => some (disableUnit v t), rfl⟩
  | config => exact ⟨fun t => some (configUnit v t), rfl⟩
  | start | stop | stopStart | contAck | contNack => exact ⟨_, rfl⟩
  | reserved | interruptEnable => exact absurd h (by decide)

theorem ne_interruptEnable_of_admitted {cls : TwcrClass} (h : cls ∈ admittedClasses) : cls ≠ .interruptEnable := by
  rintro rfl
  exact absurd h (by decide)

/-- An admitted byte other than a DISABLE is refused while the unit is busy. -/
theorem transact_twcr_busy {v : Byte} {s : State} (h : twcrClass v ∈ admittedClasses) (hdis : twcrClass v ≠ .disable)
    (hb : isBusy s.twi = true) : transact (writeWord addrTwcr v) s = .refused .twiBusy := by
  obtain ⟨f, hf⟩ := transact_twcr_of_admitted h s
  exact hf.trans (twcrWrite_busy rfl (ne_interruptEnable_of_admitted h) hdis hb)

/-- Where neither the byte nor a busy unit refuses a TWCR write, the rule of its class answers. -/
theorem transact_twcr_of_free {v : Byte} {s : State} (h : twcrClass v ∈ admittedClasses)
    (hfree : isBusy s.twi = false ∨ twcrClass v = .disable) :
    transact (writeWord addrTwcr v) s = .refused .twiIllegalCommand ∨
      ∃ t, transact (writeWord addrTwcr v) s = .next t := by
  have hint := ne_interruptEnable_of_admitted h
  obtain ⟨f, hf⟩ := transact_twcr_of_admitted h s
  cases hu : f s.twi with
  | none => exact .inl (hf.trans (twcrWrite_illegal rfl hint hfree hu))
  | some u => exact .inr ⟨_, hf.trans (twcrWrite_next rfl hint hfree hu)⟩

/-- Settles O33: the class of the byte tells the first two refusals, the unit and the class's rule the others. -/
theorem twcrRefusalOrder : Obligations.TwcrRefusalOrder := by
  intro s v busy reserved
  have hint : twcrClass v = .interruptEnable ↔ v.getLsbD 0 = true := twcrClass_eq_interruptEnable_iff v
  have hres : twcrClass v = .reserved ↔ reserved := twcrClass_eq_reserved_iff v
  have hbusy : isBusy s.twi = true ↔ busy := isBusy_iff s.twi
  have hadm : v.getLsbD 0 = false → ¬ reserved → twcrClass v ∈ admittedClasses := fun h0 hr =>
    mem_admittedClasses (by simp [hint, h0, -BitVec.getLsbD_eq_getElem]) (mt hres.1 hr)
  refine ⟨fun h0 => ?_, fun hr => ?_, fun h0 hr hb h2 => ?_, fun h0 hr hfree => ?_⟩
  · exact transact_of_interruptEnable ((decode_twcr v).trans (by rw [hint.2 h0]; rfl)) s
  · exact transact_of_reservedValue ((decode_twcr v).trans (by rw [hres.2 hr]; rfl)) s
  · have hcls := hadm h0 hr
    exact transact_twcr_busy hcls (by rw [Ne, twcrClass_eq_disable_iff v hcls, h2]; decide) (hbusy.2 hb)
  · have hcls := hadm h0 hr
    exact transact_twcr_of_free hcls
      (hfree.imp (fun h => by rwa [← hbusy, Bool.not_eq_true] at h) (twcrClass_eq_disable_iff v hcls).2)

/-! ## The rules of the commands (R191 to R197) -/

theorem not_busy_of_waiting {t : Twi} (h : t.phase = .off ∨ t.phase = .idle ∨ t.phase = .held) : isBusy t = false := by
  obtain h | h | h := h <;> simp [isBusy, isPending, h]

/-- A unit that is off or idle, or held with a status of one list, is not held with one of a list disjoint from it. -/
theorem not_heldWith {t : Twi} {l l' : List Byte}
    (h : t.phase = .off ∨ t.phase = .idle ∨ (t.phase = .held ∧ statusOf t ∈ l)) (hdisj : ∀ st ∈ l, st ∉ l') :
    ¬ heldWith t l' = true := by
  rw [heldWith_iff]
  rintro ⟨hheld, hmem⟩
  obtain hp | hp | ⟨-, hst⟩ := h
  · simp [hp] at hheld
  · simp [hp] at hheld
  · exact hdisj _ hst hmem

section

variable {v : Byte} {t : Twi}

theorem startCommand_admitted
    (h : t.phase = .off ∨ t.phase = .idle ∨ (t.phase = .held ∧ statusOf t ∈ frameStatuses ++ [0x38])) :
    startCommand v t = some (launch v (if t.owns then .repStart else .start) t) :=
  if_pos (by simpa only [Bool.or_eq_true, beq_iff_eq, heldWith_iff, or_assoc] using h)

theorem startCommand_refused {l : List Byte} (hp : t.phase = .held) (hst : statusOf t ∈ l)
    (hdisj : ∀ st ∈ l, st ∉ frameStatuses ++ [0x38]) : startCommand v t = none := by
  refine if_neg ?_
  rw [Bool.or_eq_true, not_or]
  exact ⟨by simp [hp], not_heldWith (.inr (.inr ⟨hp, hst⟩)) hdisj⟩

theorem stopStartCommand_admitted (hp : t.phase = .held) (hst : statusOf t ∈ frameStatuses) :
    stopStartCommand v t = some (launch v .stopStart t) :=
  if_pos ((heldWith_iff t _).2 ⟨hp, hst⟩)

theorem stopStartCommand_refused (h : ¬ (t.phase = .held ∧ statusOf t ∈ frameStatuses)) :
    stopStartCommand v t = none :=
  if_neg (mt (heldWith_iff t _).1 h)

theorem stopCommand_stops (hp : t.phase = .held) (hst : statusOf t ∈ frameStatuses) :
    stopCommand v t = some { commandFields v t with phase := .stopping, tws := noStatus } :=
  if_pos ((heldWith_iff t _).2 ⟨hp, hst⟩)

theorem stopCommand_recovers (hp : t.phase = .held) (hst : statusOf t ∈ ([0x00] : List Byte)) :
    stopCommand v t = some { commandFields v t with sto := false, owns := false, phase := .idle, tws := noStatus } :=
  (if_neg (not_heldWith (.inr (.inr ⟨hp, hst⟩)) (by decide))).trans (if_pos ((heldWith_iff t _).2 ⟨hp, hst⟩))

theorem stopCommand_refused
    (h : t.phase = .off ∨ t.phase = .idle ∨ (t.phase = .held ∧
      statusOf t ∈ ([0x08, 0x10, 0x38, 0x40, 0x50] : List Byte))) : stopCommand v t = none :=
  (if_neg (not_heldWith h (by decide))).trans (if_neg (not_heldWith h (by decide)))

theorem continueCommand_addresses (hp : t.phase = .held) (hst : statusOf t ∈ ([0x08, 0x10] : List Byte)) :
    continueCommand v t = some (launch v (.sla t.twdr) t) :=
  if_pos ((heldWith_iff t _).2 ⟨hp, hst⟩)

theorem continueCommand_transmits (hp : t.phase = .held)
    (hst : statusOf t ∈ ([0x18, 0x20, 0x28, 0x30] : List Byte)) :
    continueCommand v t = some (launch v (.tx t.twdr) t) :=
  (if_neg (not_heldWith (.inr (.inr ⟨hp, hst⟩)) (by decide))).trans (if_pos ((heldWith_iff t _).2 ⟨hp, hst⟩))

theorem continueCommand_receives (hp : t.phase = .held) (hst : statusOf t ∈ ([0x40, 0x50] : List Byte)) :
    continueCommand v t = some (launch v (if v.getLsbD 6 then .rxAck else .rxNack) t) := by
  have hno {l : List Byte} := not_heldWith (l' := l) (.inr (.inr ⟨hp, hst⟩))
  exact (if_neg (hno (by decide))).trans <| (if_neg (hno (by decide))).trans (if_pos ((heldWith_iff t _).2 ⟨hp, hst⟩))

theorem continueCommand_releases (hp : t.phase = .held) (hst : statusOf t ∈ ([0x38] : List Byte)) :
    continueCommand v t = some { commandFields v t with owns := false, phase := .idle, tws := noStatus } := by
  have hno {l : List Byte} := not_heldWith (l' := l) (.inr (.inr ⟨hp, hst⟩))
  exact (if_neg (hno (by decide))).trans <| (if_neg (hno (by decide))).trans <|
    (if_neg (hno (by decide))).trans (if_pos ((heldWith_iff t _).2 ⟨hp, hst⟩))

theorem continueCommand_refused
    (h : t.phase = .off ∨ t.phase = .idle ∨ (t.phase = .held ∧ statusOf t ∈ ([0x48, 0x58, 0x00] : List Byte))) :
    continueCommand v t = none := by
  have hno {l : List Byte} := not_heldWith (l' := l) h
  exact (if_neg (hno (by decide))).trans <| (if_neg (hno (by decide))).trans <|
    (if_neg (hno (by decide))).trans (if_neg (hno (by decide)))

end

theorem exec_disable {v : Byte} (hc : twcrClass v = .disable) (s : State) :
    exec (.wrTwcrDisable v) s = .next (writeDone (setTwi s (disableUnit v s.twi))) :=
  twcrWrite_next (f := fun t => some (disableUnit v t)) hc (by decide) (.inr rfl) rfl

theorem exec_config {v : Byte} {s : State} (hc : twcrClass v = .config) (hfree : isBusy s.twi = false) :
    exec (.wrTwcrConfig v) s = .next (writeDone (setTwi s (configUnit v s.twi))) :=
  twcrWrite_next (f := fun t => some (configUnit v t)) hc (by decide) (.inl hfree) rfl

theorem exec_config_busy {v : Byte} {s : State} (hc : twcrClass v = .config) (hb : isBusy s.twi = true) :
    exec (.wrTwcrConfig v) s = .refused .twiBusy :=
  twcrWrite_busy (f := fun t => some (configUnit v t)) hc (by decide) (by decide) hb

/-- CONT with either value of TWEA runs the one rule of R197. -/
theorem exec_continue {i : Instr} {v : Byte}
    (h : (i = .wrTwcrContAck v ∧ v &&& 0xF5 = 0xC4) ∨ (i = .wrTwcrContNack v ∧ v &&& 0xF5 = 0x84)) :
    ∃ cls ∈ [TwcrClass.contAck, .contNack], twcrClass v = cls ∧
      ∀ s, exec i s = twcrWrite cls v (continueCommand v) s := by
  obtain ⟨rfl, hv⟩ | ⟨rfl, hv⟩ := h
  · exact ⟨.contAck, by decide, twcrClass_contAck hv, fun _ => rfl⟩
  · exact ⟨.contNack, by decide, twcrClass_contNack hv, fun _ => rfl⟩

theorem commandFields_of_continue {cls : TwcrClass} {v : Byte} (hcls : cls ∈ [TwcrClass.contAck, .contNack])
    (hc : twcrClass v = cls) (t : Twi) :
    commandFields v t =
      { t with ea := v.getLsbD 6, sta := false, sto := false, en := true, ie := false, int := false } := by
  obtain rfl | rfl : cls = .contAck ∨ cls = .contNack := by simpa using hcls
  · exact commandFields_of_class hc (by decide) t
  · exact commandFields_of_class hc (by decide) t

end Sys2Proof.Machine
end

section
/-! The statements of the TWCR commands (R189 to R198), each read off the refusals of a TWCR write and the command's
rule. They stand outside `Sys2Proof.Machine`, where three of their names are the rules' own. -/

namespace Sys2Proof

open Sys2Proof.Machine Sys2Proof.Safety

/-! ## The commands, each in every phase -/

/-- Settles O34: no check but that of the class refuses a DISABLE. -/
theorem disableCommand : Obligations.DisableCommand := fun s _ hv =>
  ⟨rfl, exec_disable (twcrClass_disable hv) s⟩

/-- Settles O35, by whether the unit is busy. -/
theorem configCommand : Obligations.ConfigCommand := by
  intro s v hv
  have hc := twcrClass_config hv
  refine ⟨rfl, fun h => ?_, fun h => exec_config_busy hc ((isBusy_iff _).2 h.symm)⟩
  rw [exec_config hc (not_busy_of_waiting h), configUnit, commandFields_of_config hc]
  rfl

/-- Settles O36, with ownership telling a START from a repeated START. -/
theorem startCommand : Obligations.StartCommand := by
  intro s v hv
  have hc := twcrClass_start hv
  refine ⟨rfl, fun h => ?_, fun hp hst => ?_, fun h => ?_⟩
  · have hfree := not_busy_of_waiting (h.imp_right (Or.imp_right And.left))
    refine (twcrWrite_next hc (by decide) (.inl hfree) (startCommand_admitted ?_)).trans ?_
    · exact h.imp_right (Or.imp_right (And.imp_right (List.subset_def.1 (by decide))))
    · rw [launch, commandFields_of_class hc (by decide)]
      rfl
  · exact twcrWrite_illegal hc (by decide) (.inl (not_busy_of_held hp)) (startCommand_refused hp hst (by decide))
  · exact twcrWrite_busy hc (by decide) (by decide) ((isBusy_iff _).2 h.symm)

/-- Settles O37: STOP_START is admitted after the statuses of a frame only. -/
theorem stopStartCommand : Obligations.StopStartCommand := by
  intro s v hv
  have hc := twcrClass_stopStart hv
  refine ⟨rfl, fun hp hst => ?_, fun h => ?_, fun h => ?_⟩
  · refine (twcrWrite_next hc (by decide) (.inl (not_busy_of_held hp)) (stopStartCommand_admitted hp hst)).trans ?_
    rw [launch, commandFields_of_class hc (by decide)]
    rfl
  · have hfree := not_busy_of_waiting (h.imp_right (Or.imp_right And.left))
    refine twcrWrite_illegal hc (by decide) (.inl hfree) (stopStartCommand_refused ?_)
    rintro ⟨hheld, hst⟩
    obtain hp | hp | ⟨-, hno⟩ := h
    · simp [hp] at hheld
    · simp [hp] at hheld
    · exact hno hst
  · exact twcrWrite_busy hc (by decide) (by decide) ((isBusy_iff _).2 h.symm)

/-- Settles O38: STOP by the two lists of R194. -/
theorem stopCommand : Obligations.StopCommand := by
  intro s v hv
  have hc := twcrClass_stop hv
  have hfields := commandFields_of_class hc (by decide) s.twi
  refine ⟨rfl, fun hp hst => ?_, fun hp hst => ?_, fun h => ?_, fun h => ?_⟩
  · refine (twcrWrite_next hc (by decide) (.inl (not_busy_of_held hp)) (stopCommand_stops hp hst)).trans ?_
    rw [hfields]
    rfl
  · have hmem : statusOf s.twi ∈ ([0x00] : List Byte) := List.mem_singleton.2 hst
    refine (twcrWrite_next hc (by decide) (.inl (not_busy_of_held hp)) (stopCommand_recovers hp hmem)).trans ?_
    rw [hfields]
    rfl
  · have hfree := not_busy_of_waiting (h.imp_right (Or.imp_right And.left))
    exact twcrWrite_illegal hc (by decide) (.inl hfree) (stopCommand_refused h)
  · exact twcrWrite_busy hc (by decide) (by decide) ((isBusy_iff _).2 h.symm)

/-- Settles O39: CONT by the lists of R197. -/
theorem continueCommands : Obligations.ContinueCommands := by
  intro s v i hi
  obtain ⟨cls, hcls, hc, hexec⟩ := exec_continue hi
  obtain ⟨hint, hdis⟩ : cls ≠ .interruptEnable ∧ cls ≠ .disable :=
    (by decide : ∀ cls ∈ [TwcrClass.contAck, .contNack], cls ≠ .interruptEnable ∧ cls ≠ .disable) cls hcls
  have hfields := commandFields_of_continue hcls hc s.twi
  have hnext {u : Twi} (hp : s.twi.phase = .held) (hu : continueCommand v s.twi = some u) :
      exec i s = .next (writeDone (setTwi s u)) :=
    (hexec s).trans (twcrWrite_next hc hint (.inl (not_busy_of_held hp)) hu)
  refine ⟨fun hp hst => ?_, fun hp hst => ?_, fun hp hst => ?_, fun hp hst => ?_, fun h => ?_, fun h => ?_⟩
  · rw [hnext hp (continueCommand_addresses hp hst), launch, hfields]
    rfl
  · rw [hnext hp (continueCommand_transmits hp hst), launch, hfields]
    rfl
  · rw [hnext hp (continueCommand_receives hp hst), launch, hfields]
    rfl
  · rw [hnext hp (continueCommand_releases hp (List.mem_singleton.2 hst)), hfields]
    rfl
  · have hfree := not_busy_of_waiting (h.imp_right (Or.imp_right And.left))
    exact (hexec s).trans (twcrWrite_illegal hc hint (.inl hfree) (continueCommand_refused h))
  · exact (hexec s).trans (twcrWrite_busy hc hint hdis ((isBusy_iff _).2 h.symm))

/-! ## The admission table (R191, R198) -/

theorem held_or_iff {t : Twi} {a b : Byte} : Held t a ∨ Held t b ↔ t.phase = .held ∧ statusOf t ∈ [a, b] := by
  simp [Held, and_or_left]

theorem held_or_or_or_iff {t : Twi} {a b c d : Byte} :
    Held t a ∨ Held t b ∨ Held t c ∨ Held t d ↔ t.phase = .held ∧ statusOf t ∈ [a, b, c, d] := by
  simp [Held, and_or_left]

/-- This master owns the bus with every held status but 0x38 and 0x00 (R198). -/
theorem owns_of_held {t : Twi} {l : List Byte} (hinv : OwnsInv t) (hp : t.phase = .held) (hmem : statusOf t ∈ l)
    (h38 : 0x38 ∉ l) (h00 : 0x00 ∉ l) : t.owns = true := by
  obtain ⟨-, -, -, howned⟩ := hinv
  exact howned hp (ne_of_mem_of_not_mem hmem h38) (ne_of_mem_of_not_mem hmem h00)

/-- Settles O40, phase and status by status: ownership by the invariant, the rest by the statements of the commands. -/
theorem admissionTable : Obligations.AdmissionTable := by
  intro s st sp ss c ci hst hsp hss hci hinv
  have ⟨hfree, _, hlost, _⟩ := hinv
  obtain ⟨-, hstart, hnoStart, hstartBusy⟩ := startCommand s st hst
  obtain ⟨-, hstop, hrecover, hnoStop, hstopBusy⟩ := stopCommand s sp hsp
  obtain ⟨-, hstopStart, hnoStopStart, hstopStartBusy⟩ := stopStartCommand s ss hss
  obtain ⟨hsla, htx, hrx, hrelease, hnoCont, hcontBusy⟩ := continueCommands s c ci hci
  have hfirst (ho : s.twi.owns = false) h : Launches (.wrTwcrStart st) s .start :=
    ⟨_, hstart h, congrArg Phase.pending (by rw [ho]; rfl)⟩
  have hrepeated (ho : s.twi.owns = true) h : Launches (.wrTwcrStart st) s .repStart :=
    ⟨_, hstart h, congrArg Phase.pending (by rw [ho]; rfl)⟩
  have hin {l l' : List Byte} (hmem : statusOf s.twi ∈ l) (h : ∀ st ∈ l, st ∈ l') : statusOf s.twi ∈ l' := h _ hmem
  have hout {l l' : List Byte} (hmem : statusOf s.twi ∈ l) (h : ∀ st ∈ l, st ∉ l') : statusOf s.twi ∉ l' := h _ hmem
  refine ⟨?notHeld, ?started, ?transmitting, ?lost, ?receiving, ?ending, ?busError, ?busy⟩
  case notHeld =>
    intro hp
    exact ⟨hfirst (hfree hp) (hp.imp_right .inl), hnoStop (hp.imp_right .inl), hnoStopStart (hp.imp_right .inl),
      hnoCont (hp.imp_right .inl)⟩
  case started =>
    intro h
    obtain ⟨hp, hmem⟩ := held_or_iff.1 h
    exact ⟨hnoStart hp (hin hmem (by decide)), hnoStop (.inr (.inr ⟨hp, hin hmem (by decide)⟩)),
      hnoStopStart (.inr (.inr ⟨hp, hout hmem (by decide)⟩)), ⟨_, hsla hp hmem, rfl⟩⟩
  case transmitting =>
    intro h
    obtain ⟨hp, hmem⟩ := held_or_or_or_iff.1 h
    have ho := owns_of_held hinv hp hmem (by decide) (by decide)
    exact ⟨hrepeated ho (.inr (.inr ⟨hp, hin hmem (by decide)⟩)), ⟨_, hstop hp (hin hmem (by decide)), rfl⟩,
      ⟨_, hstopStart hp (hin hmem (by decide)), rfl⟩, ⟨_, htx hp hmem, rfl⟩⟩
  case lost =>
    rintro ⟨hp, h38⟩
    have hmem : statusOf s.twi ∈ ([0x38] : List Byte) := List.mem_singleton.2 h38
    exact ⟨hfirst (hlost hp h38) (.inr (.inr ⟨hp, hin hmem (by decide)⟩)),
      hnoStop (.inr (.inr ⟨hp, hin hmem (by decide)⟩)), hnoStopStart (.inr (.inr ⟨hp, hout hmem (by decide)⟩)),
      ⟨_, hrelease hp h38, rfl⟩⟩
  case receiving =>
    intro h
    obtain ⟨hp, hmem⟩ := held_or_iff.1 h
    exact ⟨hnoStart hp (hin hmem (by decide)), hnoStop (.inr (.inr ⟨hp, hin hmem (by decide)⟩)),
      hnoStopStart (.inr (.inr ⟨hp, hout hmem (by decide)⟩)), ⟨_, hrx hp hmem, rfl⟩⟩
  case ending =>
    intro h
    obtain ⟨hp, hmem⟩ := held_or_iff.1 h
    have ho := owns_of_held hinv hp hmem (by decide) (by decide)
    exact ⟨hrepeated ho (.inr (.inr ⟨hp, hin hmem (by decide)⟩)), ⟨_, hstop hp (hin hmem (by decide)), rfl⟩,
      ⟨_, hstopStart hp (hin hmem (by decide)), rfl⟩, hnoCont (.inr (.inr ⟨hp, hin hmem (by decide)⟩))⟩
  case busError =>
    rintro ⟨hp, h00⟩
    have hmem : statusOf s.twi ∈ ([0x00] : List Byte) := List.mem_singleton.2 h00
    exact ⟨hnoStart hp (hin hmem (by decide)), ⟨_, hrecover hp h00, rfl⟩,
      hnoStopStart (.inr (.inr ⟨hp, hout hmem (by decide)⟩)), hnoCont (.inr (.inr ⟨hp, hin hmem (by decide)⟩))⟩
  case busy =>
    intro h
    exact ⟨hstartBusy h.symm, hstopBusy h.symm, hstopStartBusy h.symm, hcontBusy h.symm⟩

end Sys2Proof
end

section
/-! The address phase of the driver (R237, R238, R242), and the constants computed from the parameters (R231, R246). -/

namespace Sys2Proof.Machine

/-! ## The address byte (R242) -/

/-- A call with a 7-bit number as its argument puts the host at the procedure's first statement. -/
theorem callProc_enters {e : Expr} {s : State} {a : Activation} {p : ProcName} {st : Stmt} {rest : Prog}
    (he : isAddress (evalExpr s.draws a.vars e) = true) (hbody : procBody Config.params p = .cons st rest)
    (callers : List Activation) (dst : Option Dest) :
    ∃ t, callProc s a callers p [e] dst = .next t ∧ t.thread.acts =
      ⟨bindParams 0 (procParams p) [evalExpr s.draws a.vars e], [], [.seq (procBody Config.params p)], dst⟩ ::
        a :: callers := by
  have hok : (!takesAddress p || (([e].map (evalExpr s.draws a.vars)).take 1).all isAddress) = true := by
    simp [he]
  refine ⟨_, if_pos hok, ?_⟩
  rw [hbody]
  rfl

/-- The host binds the value to the local and stands at the next statement (R121). -/
theorem hostStep_assign {s : State} {a : Activation} {callers : List Activation} {w : Width} {x : Local} {e : Expr}
    {st : Stmt} {rest : Prog} {k : List Todo} (h : s.thread.acts = a :: callers)
    (ht : a.todo = .seq (.cons (.assign w x e) (.cons st rest)) :: k) :
    ∃ t, hostStep s = .next t ∧ SameBlock s t ∧ t.thread = { s.thread with
      acts := { a with
        vars := bindLocal a.vars x (reduceTo w (evalExpr s.draws a.vars e))
        todo := .seq (.cons st rest) :: k } :: callers } :=
  ⟨_, hostStep_of_acts h ht rfl, .refl s, rfl⟩

/-- A number below 256 is assigned to a byte as it is (R127). -/
theorem reduceTo_byte_of_lt {n : Nat} (h : n < 256) : reduceTo .byte n = n := by
  simp only [reduceTo]
  omega

/-- `(a << 1) | dir` is `2 * a + dir`, as the low bit of `a << 1` is free for `dir` (R242). -/
theorem evalExpr_addressByte {a dir : Nat} (hdir : dir < 2) {vars : List (Local × Nat)} {x : Local}
    (hx : lookup vars x = some a) (draws : Nat) :
    evalExpr draws vars (.or (.shl (.var x) (.lit 1)) (.lit dir)) = (2 * a + dir : Nat) := by
  have hshl : shiftLeft (a : Int) ((1 : Nat) : Int) = (2 * a : Nat) := by
    simp [shiftLeft, Int.mul_comm]
  have hor : 2 * a ||| dir = 2 * a + dir := (Nat.two_pow_add_eq_or_of_lt (i := 1) hdir a).symm
  simp only [evalExpr, localValue, hx, Option.getD_some, hshl, bitwise, statedResult, Int.toNat_natCast, hor]
  simp

/-- From the text of an address phase the first word writes the address byte to TWDR (R237, R238, R242). -/
theorem bodyAddress_firstWord {s : State} {callers : List Activation} {vars : List (Local × Nat)} {buf : List Byte}
    {k : List Todo} {dst : Option Dest} {a dir : Nat} {site : Site}
    (hacts : s.thread.acts = ⟨vars, buf, .seq (bodyAddress dir site) :: k, dst⟩ :: callers)
    (hdir : dir < 2) (ha : lookup vars 0 = some a) :
    ∃ t, hostStep s = .next t ∧ fetch t = some (writeWord addrTwdr (BitVec.ofNat 8 (2 * a + dir))) := by
  obtain ⟨t, hstep, -, hthread⟩ := hostStep_assign hacts rfl
  refine ⟨t, hstep, ?_⟩
  rw [fetch_of_acts (congrArg HostThread.acts hthread) rfl, stmtWord, evalExpr, localValue, lookup_bindLocal,
    Option.getD_some, toByte_reduceTo_byte, evalExpr_addressByte hdir ha, BitVec.ofInt_natCast]

/-- Settles O57: a wide argument is `callProc_of_wide`; else the call puts the host at the address phase, whose first
word `bodyAddress_firstWord` gives. -/
theorem addressByte : Obligations.AddressByte := by
  intro s c callers n dir p hp
  obtain ⟨site, htakes, hparams, hbody, hdir⟩ : ∃ site, (p = .addressWrite ∨ p = .addressRead) ∧
      procParams p = [.byte] ∧ procBody Config.params p = bodyAddress dir site ∧ dir < 2 := by
    obtain ⟨rfl, rfl⟩ | ⟨rfl, rfl⟩ := hp
    · exact ⟨.addressWrite, .inl rfl, rfl, rfl, by decide⟩
    · exact ⟨.addressRead, .inr rfl, rfl, rfl, by decide⟩
  have hval : evalExpr s.draws c.vars (.lit n) = n := rfl
  refine ⟨fun hwide => callProc_of_wide htakes (.inr ?_) callers [] none, fun hn => ?_⟩
  · rw [hval]
    omega
  · have hfits : isAddress (evalExpr s.draws c.vars (.lit n)) = true := by
      rw [← Bool.not_eq_false, isAddress_eq_false_iff, hval]
      omega
    have ha : lookup (bindParams 0 [.byte] [evalExpr s.draws c.vars (.lit n)]) 0 = some n :=
      congrArg some (reduceTo_byte_of_lt (by omega))
    obtain ⟨t, hcall, hacts⟩ := callProc_enters hfits hbody callers none
    rw [hparams, hbody] at hacts
    obtain ⟨u, hstep, hword⟩ := bodyAddress_firstWord hacts hdir ha
    exact ⟨t, u, hcall, hstep, hword⟩

/-! ## The constants of the parameters (R231, R246) -/

theorem twbrVal_params : twbrVal Config.params = 12 := by decide

theorem t0Ocr_params : t0Ocr Config.params = 249 := by decide

/-- Of the open parameters admissibility reads `BURST_N` alone, which is at least 1 (R8; log 7). -/
theorem paramsAdmissible_params : paramsAdmissible Config.params = true := by
  have hburst : 1 ≤ Config.params.burstN := Nat.le_add_left 1 Config.burstExtra
  simp only [paramsAdmissible, twbrVal_params, t0Ocr_params, hburst]
  decide

/-- Settles O58: the two constants are computed, and the one open bound holds by the form of `burstN`. -/
theorem parameterConstants : Obligations.ParameterConstants :=
  ⟨twbrVal_params, t0Ocr_params, paramsAdmissible_params⟩

end Sys2Proof.Machine
end

section
/-! No state is stuck (R272), and the fault state is terminal (R247, R281). -/

namespace Sys2Proof.Machine

open Sys2Proof.Safety

/-! ## No state is stuck (R119, R272) -/

/-- Settles O11: a host that has not ended has a step, so by `mover_eq_none_iff` somebody moves. -/
theorem noStateIsStuck : Obligations.NoStateIsStuck := by
  refine fun s => ⟨fun ⟨hhost, hnone⟩ => ?_, fun hhost => Option.ne_none_iff_exists'.1 fun hm => ?_⟩
  · exact absurd (hhost.symm.trans (hnone .host)) (by decide)
  · obtain ⟨hoff, -⟩ := (mover_eq_none_iff s).1 hm
    exact absurd (hhost.symm.trans hoff) (by decide)

/-! ## What is left of a text of the fault state (R247, R281) -/

/-- What is left of one procedure's text while the host is in the fault state: the endless text itself, which does not
return, or that of a procedure called from it, which may. -/
def FaultText : Bool → List Todo → Prop
  | false, l => endlessTodo l = true
  | true, l => l.all (quietTodo true) = true

/-- The running procedure is in the fault state by its own text, or by its caller's. -/
theorem inFaultState_cons {a : Activation} {callers : List Activation} :
    inFaultState (a :: callers) = true ↔
      ∃ mayReturn, FaultText mayReturn a.todo ∧ (mayReturn = true → inFaultState callers = true) := by
  simp [inFaultState, FaultText]

@[simp] theorem faultText_nil {mayReturn : Bool} : FaultText mayReturn [] ↔ mayReturn = true := by
  cases mayReturn <;> simp [FaultText, endlessTodo]

@[simp] theorem faultText_seq {mayReturn : Bool} {p : Prog} {k : List Todo} :
    FaultText mayReturn (.seq p :: k) ↔
      quietProg mayReturn p = true ∧ ((mayReturn = false ∧ endlessProg p = true) ∨ FaultText mayReturn k) := by
  cases mayReturn <;> simp [FaultText, endlessTodo, quietTodo]

@[simp] theorem faultText_loop {mayReturn : Bool} {n : Nat} {body : Prog} {k : List Todo} :
    FaultText mayReturn (.loop n body :: k) ↔ quietProg mayReturn body = true ∧ FaultText mayReturn k := by
  cases mayReturn <;> simp [FaultText, endlessTodo, quietTodo]

@[simp] theorem faultText_forever {mayReturn : Bool} {body : Prog} {k : List Todo} :
    FaultText mayReturn (.forever body :: k) ↔
      quietProg mayReturn body = true ∧ (mayReturn = false ∨ FaultText mayReturn k) := by
  cases mayReturn <;> simp [FaultText, endlessTodo, quietTodo]

/-- A statement in front is of the fault state's, and so is the text after it. -/
theorem faultText_stmt {mayReturn : Bool} {st : Stmt} {rest : Prog} {k : List Todo} :
    FaultText mayReturn (.seq (.cons st rest) :: k) ↔
      quietStmt mayReturn st = true ∧ FaultText mayReturn (.seq rest :: k) := by
  simp [quietProg, endlessProg, and_assoc]

theorem faultText_done {mayReturn : Bool} {k : List Todo} :
    FaultText mayReturn (.seq .done :: k) ↔ FaultText mayReturn k := by
  simp [quietProg, endlessProg]

section

variable {mayReturn : Bool} {body rest : Prog} {k : List Todo}

/-- An IF of the fault state goes on in the fault state's text, whichever way (R123). -/
theorem FaultText.branch {c : Cond} {thn els : Prog} (h : FaultText mayReturn (.seq (.ite c thn els rest) :: k))
    (taken : Bool) : FaultText mayReturn (.seq (if taken then thn else els) :: .seq rest :: k) := by
  simp only [faultText_seq, quietProg, endlessProg, Bool.and_eq_true] at h
  obtain ⟨⟨⟨hthn, hels⟩, hrest⟩, hk⟩ := h
  rw [faultText_seq, faultText_seq]
  cases taken with
  | true => exact ⟨hthn, .inr ⟨hrest, hk⟩⟩
  | false => exact ⟨hels, .inr ⟨hrest, hk⟩⟩

/-- A LOOP of the fault state leaves its runs and the text after it (R124). -/
theorem FaultText.startLoop {e : Expr} (h : FaultText mayReturn (.seq (.loop e body rest) :: k)) (n : Nat) :
    FaultText mayReturn (.loop n body :: .seq rest :: k) := by
  simp only [faultText_seq, quietProg, endlessProg, Bool.and_eq_true] at h
  obtain ⟨⟨hbody, hrest⟩, hk⟩ := h
  rw [faultText_loop, faultText_seq]
  exact ⟨hbody, hrest, hk⟩

/-- A run of a loop's body leaves one run fewer (R124). -/
theorem FaultText.enterLoop {n : Nat} (h : FaultText mayReturn (.loop (n + 1) body :: k)) :
    FaultText mayReturn (.seq body :: .loop n body :: k) := by
  obtain ⟨hbody, hk⟩ := faultText_loop.1 h
  exact faultText_seq.2 ⟨hbody, .inr (faultText_loop.2 ⟨hbody, hk⟩)⟩

/-- A FOREVER is the endless end of its text (R125). -/
theorem FaultText.startForever (h : FaultText mayReturn (.seq (.forever body) :: k)) :
    FaultText mayReturn (.forever body :: k) := by
  obtain ⟨hbody, hk⟩ := faultText_seq.1 h
  exact faultText_forever.2 ⟨hbody, hk.imp_left And.left⟩

/-- A run of a FOREVER's body leaves the FOREVER (R125). -/
theorem FaultText.enterForever (h : FaultText mayReturn (.forever body :: k)) :
    FaultText mayReturn (.seq body :: .forever body :: k) := by
  obtain ⟨hbody, hk⟩ := faultText_forever.1 h
  exact faultText_seq.2 ⟨hbody, .inr (faultText_forever.2 ⟨hbody, hk⟩)⟩

end

/-- Leaving ended sequences and entering bodies stays in the fault state's text (R122). -/
theorem FaultText.settle {mayReturn : Bool} {l : List Todo} (h : FaultText mayReturn l) :
    FaultText mayReturn (settleTodo l) := by
  induction l using settleTodo.induct with
  | case1 => exact h
  | case2 k ih => exact ih (faultText_done.1 h)
  | case3 p k hp =>
    rw [settleTodo]
    · exact h
    · exact hp
  | case4 k body ih => exact ih (faultText_loop.1 h).2
  | case5 n k ih => exact ih (faultText_loop.1 h).2
  | case6 n body k hbody =>
    rw [settleTodo]
    · exact h.enterLoop
    · exact hbody
  | case7 => exact h
  | case8 body k hbody =>
    rw [settleTodo]
    · exact h.enterForever
    · exact hbody

/-- The host's position settles within the fault state: a text that has ended is that of a called procedure, whose
caller is in the fault state (R122, R126). -/
theorem inFaultState_settleActs {l : List Activation} (h : inFaultState l = true) :
    inFaultState (settleActs l) = true := by
  induction l with
  | nil => exact h
  | cons a callers ih =>
    obtain ⟨mayReturn, htext, hcallers⟩ := inFaultState_cons.1 h
    cases hsettled : settleTodo a.todo with
    | cons t k =>
      rw [settleActs_running hsettled, inFaultState_cons, ← hsettled]
      exact ⟨mayReturn, htext.settle, hcallers⟩
    | nil =>
      have hreturns : mayReturn = true := faultText_nil.1 (hsettled ▸ htext.settle)
      cases callers with
      | nil => exact absurd (hcallers hreturns) (by decide)
      | cons c cs =>
        rw [settleActs_ended hsettled]
        exact ih (hcallers hreturns)

/-! ## The host's steps in the fault state -/

/-- The host is in the fault state in `t`, with the fault site and the events of `s`. -/
def KeepsFault (s t : State) : Prop :=
  inFaultState t.thread.acts = true ∧ t.thread.faultSite = s.thread.faultSite ∧ t.thread.emitted = s.thread.emitted

theorem keepsFault_continueWith {s : State} {l : List Activation} (h : inFaultState l = true) :
    KeepsFault s (continueWith s l) :=
  ⟨inFaultState_settleActs h, rfl, rfl⟩

/-- The text of the delay, the only procedure the fault state calls, is one of the fault state's (R245, R247). -/
theorem faultText_delay : FaultText true [.seq (procBody Config.params .delayMilliseconds)] := rfl

/-- After its transaction a statement of the fault state leaves a text of it: a bit operation its write, a poll itself
or what follows. -/
theorem FaultText.afterStmt {mayReturn : Bool} {a : Activation} {st : Stmt} {rest : Prog} {k : List Todo}
    (h : FaultText mayReturn a.todo) (ht : a.todo = .seq (.cons st rest) :: k) (x : Byte) :
    FaultText mayReturn (afterStmt x a st rest k).todo := by
  obtain ⟨hst, hrest⟩ := faultText_stmt.1 (ht ▸ h)
  cases st with
  | rd | wr | tstb => exact hrest
  | setb | clrb | tglb => exact faultText_stmt.2 ⟨hst, hrest⟩
  | poll b m v =>
    rw [Machine.afterStmt]
    split
    · exact hrest
    · exact h
  | expect => cases hst
  | assign | call | ret | emit | append | setSite => exact h

/-- A value returned to the caller leaves every text as it is (R126). -/
theorem inFaultState_returnByte (n : Nat) (dst : Option Dest) (callers : List Activation) :
    inFaultState (returnByte n dst callers) = inFaultState callers := by
  unfold returnByte
  split <;> rfl

/-- A byte list returned to the caller leaves every text as it is (R250). -/
theorem inFaultState_returnBuf (l : List Byte) (dst : Option Dest) (callers : List Activation) :
    inFaultState (returnBuf l dst callers) = inFaultState callers := by
  unfold returnBuf
  split <;> rfl

/-- A RET in the fault state goes back to a caller in the fault state. -/
theorem returnFrom_keepsFault {s t : State} {a : Activation} {callers : List Activation} {r : RetValue}
    (hcallers : inFaultState callers = true) (h : returnFrom s a callers r = .next t) : KeepsFault s t := by
  have hreturn : ∀ l, inFaultState l = true → inFaultState ({ a with todo := [] } :: l) = true :=
    fun l hl => inFaultState_cons.2 ⟨true, faultText_nil.2 rfl, fun _ => hl⟩
  cases r with
  | nothing => cases h; exact keepsFault_continueWith (hreturn _ hcallers)
  | buf => cases h; exact keepsFault_continueWith (hreturn _ (by rwa [inFaultState_returnBuf]))
  | expr e => cases h; exact keepsFault_continueWith (hreturn _ (by rwa [inFaultState_returnByte]))

/-- A statement of the fault state that issues no word keeps the host in it: it sends no event, sets no site, and
calls the delay only. -/
theorem controlStmt_keepsFault {s t : State} {a : Activation} {callers : List Activation} {st : Stmt}
    {mayReturn : Bool} (hs : inFaultState s.thread.acts = true) (hst : quietStmt mayReturn st = true)
    (htext : FaultText mayReturn a.todo) (hcallers : mayReturn = true → inFaultState callers = true)
    (h : controlStmt s a callers st = .next t) : KeepsFault s t := by
  have hgoes : inFaultState (a :: callers) = true := inFaultState_cons.2 ⟨mayReturn, htext, hcallers⟩
  cases st with
  | assign | append => cases h; exact keepsFault_continueWith hgoes
  | call p args dst =>
    obtain rfl : p = .delayMilliseconds := by simpa [quietStmt] using hst
    cases h
    exact keepsFault_continueWith (inFaultState_cons.2 ⟨true, faultText_delay, fun _ => hgoes⟩)
  | ret r => exact returnFrom_keepsFault (hcallers hst) h
  | emit | setSite | expect => cases hst
  | setb | clrb | tglb | tstb => cases h
  | rd | wr | poll => cases h; exact ⟨hs, rfl, rfl⟩

/-- A host step without a word keeps the host in the fault state. -/
theorem hostControl_keepsFault {s t : State} (hs : inFaultState s.thread.acts = true) (h : hostControl s = .next t) :
    KeepsFault s t := by
  unfold hostControl at h
  split at h
  · cases h
    exact ⟨hs, rfl, rfl⟩
  · rename_i a callers hacts
    have hs' := hs
    rw [hacts] at hs'
    obtain ⟨mayReturn, htext, hcallers⟩ := inFaultState_cons.1 hs'
    have hgoes : ∀ l, FaultText mayReturn l → KeepsFault s (continueWith s ({ a with todo := l } :: callers)) :=
      fun l hl => keepsFault_continueWith (inFaultState_cons.2 ⟨mayReturn, hl, hcallers⟩)
    split at h
    · rename_i htodo
      obtain ⟨hst, hrest⟩ := faultText_stmt.1 (htodo ▸ htext)
      exact controlStmt_keepsFault hs hst hrest hcallers h
    · rename_i htodo
      cases h
      exact hgoes _ ((htodo ▸ htext).branch _)
    · rename_i htodo
      cases h
      exact hgoes _ ((htodo ▸ htext).startLoop _)
    · rename_i htodo
      cases h
      exact hgoes _ (htodo ▸ htext).startForever
    · cases h
      exact keepsFault_continueWith hs'

/-! ## The transactions of the fault state (R62, R281) -/

/-- A host that issues a word stands at the statement whose word it is (R101). -/
theorem fetch_eq_some {s : State} {w : BusWord} (h : fetch s = some w) :
    ∃ a callers st rest k, s.thread.acts = a :: callers ∧ a.todo = .seq (.cons st rest) :: k ∧
      stmtWord s.draws a.vars st = some w := by
  unfold fetch at h
  split at h
  · cases h
  · split at h
    · exact ⟨_, _, _, _, _, by assumption, by assumption, h⟩
    · cases h

/-- The word of a statement of the fault state has an address of DDRB, PORTB or the timer (R247). -/
theorem addrField_stmtWord {mayReturn : Bool} {st : Stmt} {n : Nat} {vars : List (Local × Nat)} {w : BusWord}
    (hst : quietStmt mayReturn st = true) (hw : stmtWord n vars st = some w) : addrField w ∈ faultAddrs := by
  have hmem : ∀ a : Addr, faultAddrs.contains a = true → a ∈ faultAddrs := fun a => List.contains_iff_mem.1
  cases st with
  | rd a | wr a | poll a =>
    cases hw
    simpa [readWord, writeWord] using hmem a hst
  | setb a | clrb a | tglb a | tstb a =>
    obtain ⟨-, hw⟩ := Option.ite_none_right_eq_some.1 hw
    cases hw
    simpa [readWord, writeWord] using hmem a hst
  | expect => cases hst
  | assign | call | ret | emit | append | setSite => cases hw

/-- No row at those addresses is one of the TWI unit (R62, R84). -/
theorem unitOf_build_of_faultAddrs :
    ∀ r ∈ rows, addrField r.value ∈ faultAddrs → ∀ v, unitOf (r.build v) ≠ .twi := by
  simp [rows, rowsGpio, rowsTimer, rowsTwi, rowsTwcr, unitOf, addrField, faultAddrs, addrDdrb, addrPortb, addrTccr0a,
    addrTccr0b, addrOcr0a, addrTcnt0, addrTifr0]

/-- A transaction at those addresses is not one of the TWI unit. -/
theorem unitOf_of_faultAddrs {w : BusWord} {i : Instr} (hi : decode w = .ok i) (hw : addrField w ∈ faultAddrs) :
    unitOf i ≠ .twi := by
  obtain ⟨r, hr, haccepts, rfl⟩ := decode_eq_ok hi
  obtain ⟨-, haddr, -⟩ := (rowAccepts_iff hr w).1 haccepts
  exact unitOf_build_of_faultAddrs r hr (haddr ▸ hw) _

/-- A host step in the fault state keeps the host in it and changes no TWI register. -/
theorem hostStep_keepsFault {s t : State} (hs : inFaultState s.thread.acts = true) (h : hostStep s = .next t) :
    KeepsFault s t ∧ t.twi = s.twi := by
  obtain ⟨w, i, u, hw, hi, hu, rfl⟩ | ⟨-, hc⟩ := hostStep_cases h
  · obtain ⟨a, callers, st, rest, k, hacts, htodo, hword⟩ := fetch_eq_some hw
    rw [hacts] at hs
    obtain ⟨mayReturn, htext, hcallers⟩ := inFaultState_cons.1 hs
    obtain ⟨hst, -⟩ := faultText_stmt.1 (htodo ▸ htext)
    obtain ⟨htwi, -, -, -, hthread, -⟩ := transactionsChangeOnlyTheirUnit i s u hu
    have hactsu : u.thread.acts = a :: callers := by rw [hthread, hacts]
    refine ⟨⟨?_, ?_, ?_⟩, ?_⟩
    · rw [afterBus_of_acts hactsu htodo]
      exact inFaultState_settleActs (inFaultState_cons.2 ⟨mayReturn, htext.afterStmt htodo _, hcallers⟩)
    · rw [afterBus_faultSite, hthread]
    · rw [afterBus_emitted, hthread]
    · obtain ⟨htwiu, -⟩ := afterBus_sameBlock u
      rw [htwiu, htwi (unitOf_of_faultAddrs hi (addrField_stmtWord hst hword))]
  · obtain ⟨htwi, -⟩ := hostControl_sameBlock hc
    exact ⟨hostControl_keepsFault hs hc, htwi⟩

/-- Where the host does not move, a step leaves it (R6). -/
theorem step_thread_of_other {s t : State} (h : step s = .next t) (hm : mover s ≠ some .host) :
    t.thread = s.thread := by
  obtain ⟨-, -, ⟨a, u, ha, hu, rfl⟩ | ⟨-, -, rfl⟩⟩ := step_cases h
  · cases a with
    | host => exact absurd ha hm
    | bus => cases hu; exact busStep_thread s
    | tclk => cases hu; exact tclkStep_thread s
    | pins => exact absurd ha (mover_ne_pins s)
  · rfl

/-- Settles O56: a host step is `hostStep_keepsFault`, and every other step leaves the host. -/
theorem faultStateIsTerminal : Obligations.FaultStateIsTerminal := by
  intro s t hs h
  by_cases hm : mover s = some .host
  · obtain ⟨u, hu, rfl⟩ := step_eq_next_of_mover h hm
    obtain ⟨⟨hacts, hsite, hemitted⟩, htwi⟩ := hostStep_keepsFault hs hu
    exact ⟨hacts, hsite, hemitted, fun _ => htwi⟩
  · rw [step_thread_of_other h hm]
    exact ⟨hs, rfl, rfl, fun hhost => absurd hhost hm⟩

end Sys2Proof.Machine
end

section
/-! The machine right after reset (R300, R302), and the invariants of the units there. -/

namespace Sys2Proof.Machine

open Sys2Proof.Safety

/-! ## Reset values (R300) -/

/-- Where every pin is an input, PINB as read is the draw alone (R162). -/
theorem pinLevels_of_inputs {g : Gpio} (h : g.ddr = 0x00) (draw : Byte) : pinLevels g draw = draw := by
  refine BitVec.eq_of_getLsbD_eq fun i hi => ?_
  have hinput : g.ddr.getLsbD i = false := h ▸ BitVec.getLsbD_zero
  simp [getLsbD_pinLevels g draw hi, hinput]

/-- While every pin is an input, a PINB read hands over the draw (R162). -/
theorem rdata_of_rdPinb_of_inputs {s t : State} (hddr : s.gpio.ddr = 0x00) (h : exec .rdPinb s = .next t) :
    t.thread.rdata = Config.freeByte s.draws := by
  cases h
  exact pinLevels_of_inputs hddr _

/-- A clock that is not selected gives TCLK no step (R146). -/
theorem not_tclk_enabled_of_stopped {s : State} (h : s.tmr.tccr0b &&& 0x07 = 0x00) : enabled .tclk s = false :=
  Bool.eq_false_iff.2 fun hon => (timerRuns_iff s.tmr).1 hon h

/-- Settles O13: the stored fields by the definition of reset, unit by unit; the PINB read, the pin and TCLK follow from
DDRB, PORTB and TCCR0B being 0. -/
theorem resetValues : Obligations.ResetValues := by
  have hpinb (t : State) : exec .rdPinb State.reset = .next t →
      t.thread.rdata = Config.freeByte State.reset.draws := rdata_of_rdPinb_of_inputs rfl
  have hpin : drive State.reset.gpio 5 = .hiZ := drive_of_input rfl
  have hstopped : enabled .tclk State.reset = false := not_tclk_enabled_of_stopped rfl
  exact ⟨rfl, rfl, -- TWCR and TWSR as read
    rfl, rfl, rfl, rfl, rfl, rfl, rfl, rfl, rfl, rfl, rfl, rfl, rfl, -- the TWI unit
    rfl, rfl, rfl, rfl, rfl, rfl, rfl, rfl, rfl, rfl, -- the timer unit
    rfl, rfl, rfl, hpinb, -- the port
    rfl, rfl, -- the marks
    hpin, hstopped⟩

/-- Settles O14: reset enters PROG main, whose text is as written, by the definitions of both. -/
theorem hostAtReset : Obligations.HostAtReset := ⟨rfl, rfl, rfl, rfl⟩

/-! ## The invariants at reset (R25, R30, R32, R33, R36) -/

/-- Off and disabled, without a status and with every flag clear, the unit meets its invariant. -/
theorem twiInv_reset : TwiInv Twi.reset := by simp [TwiInv, Twi.reset]

/-- Settles O47: the TWI unit is off and does not own the bus, and the timer's control registers are 0. -/
theorem invariantsHoldAtReset : Obligations.InvariantsHoldAtReset :=
  ⟨twiInv_reset, ownsInv_of_released (.inl rfl) rfl, .inl rfl, by decide, rfl⟩

end Sys2Proof.Machine
end
